-- ==== Sys2Proof/Word.lean ====
section
/-! DEFINITION. The word and byte types, and the four byte lanes of the PHY (R10, R39). -/

namespace Sys2Proof

/-- A 32-bit word: a command word, a block register, a mode-register value (R71, R100). -/
abbrev Word := BitVec 32

/-- A byte of the DRAM data space (R73). -/
abbrev Byte := BitVec 8

/-- One value for each of the P_LANES = 4 byte lanes (R7, R39). -/
structure Lanes (α : Type) where
  lane0 : α
  lane1 : α
  lane2 : α
  lane3 : α
deriving DecidableEq, Repr, Inhabited

end Sys2Proof
end

