-- ==== Sys2Proof/Syntax.lean ====
section
/-! DEFINITION. The eight commands (R101), one constructor per row of spec/opcode_table.json, and the host's
program lines (R109, R110). -/

namespace Sys2Proof

/-- A command of the block (R101). A command word has no operand field (R100): the operands come from GEOM, from the
latched geometry AG and from PARAMS (R107). -/
inductive Instr where
  | clkInit
  | cfgOdt
  | cfgAddrmap
  | cfgTiming
  | phyInit
  | dfiInit
  | rdCal
  | bringup
deriving DecidableEq, Repr

/-- The binary operators of host arithmetic (R10, R109). A comparison gives 1 or 0. -/
inductive HostOp where
  | add
  | sub
  | mul
  | div
  | mod
  | shl
  | shr
  | and
  | or
  | min
  | max
  | eq
  | ne
  | lt
  | le
deriving DecidableEq, Repr

/-- A host expression, on unbounded naturals (R109, D45). Temporaries are numbered (log 16). -/
inductive HostExpr where
  | lit (n : Nat)
  | tmp (t : Nat)
  | bin (op : HostOp) (a b : HostExpr)
  /-- v[hi:lo] (R10). -/
  | slice (hi lo : Nat) (v : HostExpr)
  /-- ~v at a width (R10). -/
  | not (width : Nat) (v : HostExpr)
  /-- {a, b}, b being of a width (R10). -/
  | cat (width : Nat) (a b : HostExpr)
  /-- c ? a : b, as the pseudocode of R287 writes it. -/
  | cond (c a b : HostExpr)
deriving DecidableEq, Repr

/-- One line of a host program (R109). A label is the number of the line it stands on (log 16). `n` is an access width
in bytes: WR32 and RD32 are `wr 4` and `rd 4`, and another width is the bad access of R72. Block-window offsets have
the 8 bits of the 256-byte window (R70). -/
inductive HostLine where
  /-- WR32 off, v (a value of 2^32 or more: log 30) -/
  | wr (n : Nat) (off : BitVec 8) (v : HostExpr)
  /-- RD32 off -> t -/
  | rd (n : Nat) (off : BitVec 8) (t : Nat)
  /-- POLL off, mask, val -/
  | poll (off : BitVec 8) (mask val : HostExpr)
  /-- DW n, a, v -/
  | dw (n : Nat) (a v : HostExpr)
  /-- DR n, a -> t -/
  | dr (n : Nat) (a : HostExpr) (t : Nat)
  /-- IF cond GOTO line -/
  | ifGoto (cond : HostExpr) (line : Nat)
  /-- GOTO line -/
  | goto (line : Nat)
  /-- t <- expr -/
  | assign (t : Nat) (e : HostExpr)
  /-- RETURN expr -/
  | ret (e : HostExpr)
deriving DecidableEq, Repr

end Sys2Proof
end

