-- ==== Sys2Proof/Decode.lean ====
section
/-! DEFINITION. Command words: the decoder, total on every 32-bit word (R100 to R104), and the encoder after it. -/

namespace Sys2Proof

/-- Why a word is no command. Safe: the machine ends such a word with ILLEGAL_CMD (R102, R103). -/
inductive DecodeError where
  /-- RSV is not zero (R103). -/
  | rsvNotZero
  /-- OPC is 0x00 or 0x09 to 0xFF (R102). -/
  | reservedOpcode
deriving DecidableEq, Repr

/-- OPC, bits [7:0] of a command word (R100). -/
def opcField (w : Word) : BitVec 8 := w.extractLsb' 0 8

/-- RSV, bits [31:8] of a command word (R100). -/
def rsvField (w : Word) : BitVec 24 := w.extractLsb' 8 24

/-- The command an OPC value selects, if any (R101, R102). -/
def instrOfOpcode (opc : BitVec 8) : Option Instr :=
  if opc = 0x01#8 then some .clkInit
  else if opc = 0x02#8 then some .cfgOdt
  else if opc = 0x03#8 then some .cfgAddrmap
  else if opc = 0x04#8 then some .cfgTiming
  else if opc = 0x05#8 then some .phyInit
  else if opc = 0x06#8 then some .dfiInit
  else if opc = 0x07#8 then some .rdCal
  else if opc = 0x08#8 then some .bringup
  else none

/-- The command a word stands for, or why it is illegal (R102 to R104). -/
def decode (w : Word) : Except DecodeError Instr :=
  if rsvField w = 0 then
    match instrOfOpcode (opcField w) with
    | some i => .ok i
    | none => .error .reservedOpcode
  else .error .rsvNotZero

/-- The opcode of a command (R101). -/
def Instr.opcode (i : Instr) : BitVec 8 :=
  match i with
  | .clkInit => 0x01
  | .cfgOdt => 0x02
  | .cfgAddrmap => 0x03
  | .cfgTiming => 0x04
  | .phyInit => 0x05
  | .dfiInit => 0x06
  | .rdCal => 0x07
  | .bringup => 0x08

/-- The command word of a command: RSV = 0 above OPC (R100). -/
def encode (i : Instr) : Word := 0#24 ++ i.opcode

/-- The command of an instruction whose bits are `w`, `nbits` of them, every higher bit 0. -/
def decodeTableWord (nbits w : Nat) : Option Instr :=
  match decode (BitVec.ofNat 32 (w % 2 ^ nbits)) with
  | .ok i => some i
  | .error _ => none

end Sys2Proof
end

