-- ==== Sys2Proof/Machine/Units.lean ====
section
/-! DEFINITION. The types of the units around the sequencer: codes, the clock unit, the controller, the PHY, the
attached device, the parameter records, and the agents' moves (R8, R9, R20, R30 to R41). Data only: what can be
done to them stands in Operands, Flags, Ops and the family files. -/

namespace Sys2Proof.Machine

/-- The four memory technologies (R1, R8). -/
inductive Tech where
  | ddr3
  | ddr4
  | lpddr3
  | lpddr4
deriving DecidableEq, Repr, Inhabited

/-- STAGE: how far bring-up has come (R30). The codes 6 and 7 do not exist. -/
inductive Stage where
  | reset
  | clocked
  | phyReady
  | dfiDone
  | operational
  | calFailed
deriving DecidableEq, Repr, Inhabited

/-- The result codes of a command (R310). The codes 5 to 7 do not exist. -/
inductive Result where
  | ok
  | calFail
  | configInvalid
  | illegalCmd
  | seqError
deriving DecidableEq, Repr, Inhabited

/-- FSM: the sequencer's micro-step, one constructor per code the command files assign (R22, R108). -/
inductive Micro where
  | idle
  | ckHold | ckSettleA | ckPll | ckLock | ckModclk | ckRstRel | ckSettleB | ckBusgate | ckBridge
  | amValidate | amMstr | amMap
  | odtMap | odtTim | odtSh0 | odtSh1 | odtSh2
  | timWrite
  | phyRstRel | phySyscfg | phyLat | phySdq | phyDrive | phyVref | phyQuirks | phyLp4 | phyCadly | phyBdly0 | phyBdly1
  | dfiArefOff | dfiInitSet | dfiInitClr | dfiWaitPhy | dfiSrExit | dfiWaitNormal
  | dfiMrwSetup | dfiMrwTrig | dfiMrwPoll | dfiVendor | dfiArefOn
  | calStart | calAttempt | calTrig | calPoll | calUntrig | calDerive
deriving DecidableEq, Repr, Inhabited

/-- The values of CTL.OPMODE (R36, R231). -/
inductive OpMode where
  | init
  | selfRefresh
  | normal
deriving DecidableEq, Repr, Inhabited

/-- P_SECOND_PASS_COND: which rank width gets the second calibration pass (R254). -/
inductive SecondPassCond where
  | rankw0
  | rankw1
deriving DecidableEq, Repr, Inhabited

/-- The Geometry Descriptor (R9). A field holds what was written, legal or not (R105). -/
structure Geometry where
  cols  : Nat
  banks : Nat
  bg    : Nat
  rows  : Nat
  rankw : Nat
  half  : Nat
deriving DecidableEq, Repr, Inhabited

/-- DEV, the attached device's true geometry (R41). `ranks` counts ranks (1 or 2), it is no width. -/
structure DeviceGeometry where
  ranks : Nat
  half  : Nat
  cols  : Nat
  banks : Nat
  bg    : Nat
  rows  : Nat
deriving DecidableEq, Repr, Inhabited

/-- An MR index (R37). -/
abbrev MrIndex := Fin 16

/-- PARAMS.mr: the JEDEC mode-register presets the rules read (R8). -/
structure MrPresets where
  mr0  : Word
  mr1  : Word
  mr2  : Word
  mr3  : Word
  mr4  : Word
  mr5  : Word
  mr6  : Word
  mr11 : Word
  mr12 : Word
  mr13 : Word
  mr14 : Word
deriving DecidableEq, Repr, Inhabited

/-- PARAMS.flags: the named tuning flags and the opaque rest, which only P_TIMING reads (R8).
DESIGN CHOICE (log 13): the opaque bit vector is a list of bits, since its width is not given. -/
structure TuningFlags where
  caDelayEn   : Bool
  bitdly0En   : Bool
  bitdly1En   : Bool
  timingFlags : List Bool
deriving DecidableEq, Repr, Inhabited

/-- PARAMS, the Memory Parameters record (R8).
DESIGN CHOICE (log 13): a field whose width the source does not give is a natural number. -/
structure Params where
  tech         : Tech
  clk          : Nat
  dxDrive      : Nat
  dxOdt        : Nat
  caDrive      : Nat
  caOdt        : Nat
  mr           : MrPresets
  flags        : TuningFlags
  caDelay      : Word
  bitdlyW0     : Word
  bitdlyW1     : Word
  vrefOverride : Option Nat
deriving DecidableEq, Repr, Inhabited

/-- The parameters of R7 that a rule branches on. DESIGN CHOICE (log 1): they are arguments of the step relation
(R42), and the state carries them so that a claim about every state is a claim about every board. -/
structure Board where
  params          : Params
  dev             : DeviceGeometry
  phyRouting      : Fin 2
  readoutW        : Nat
  dramWindow      : Nat
  halfStartOffset : Nat
  secondPass      : SecondPassCond
  mr6TeBit        : Nat
  calMaskFull     : BitVec 4
  calMaskHalf     : BitVec 4
deriving DecidableEq, Repr, Inhabited

/-- The clock and reset unit (R31). -/
structure Ccu where
  bridgeEn : Bool
  busGate  : Bool
  modClkEn : Bool
  dramRst  : Bool
deriving DecidableEq, Repr, Inhabited

/-- The PLL (R31): its frequency in MHz and its lock bit. -/
structure Pll where
  freq : Nat
  lock : Bool
deriving DecidableEq, Repr, Inhabited

/-- CTL.MSTR (R32). -/
structure Mstr where
  tech  : Tech
  half  : Nat
  ranks : BitVec 2
deriving DecidableEq, Repr, Inhabited

/-- CTL.ADDRMAP (R33): BG0, BG1; COL3 to COL11 (entry c - 3 is COLc); BANK0 to BANK2; ROW0 to ROW17; RANK0.
`some p` is HIF position p, `none` is DISABLED. COL0 to COL2 have no entry (R144). -/
structure AddrMap where
  bg    : Vector (Option Nat) 2
  col   : Vector (Option Nat) 9
  bank  : Vector (Option Nat) 3
  row   : Vector (Option Nat) 18
  rank0 : Option Nat
deriving DecidableEq, Repr, Inhabited

/-- CTL.TIMING: what P_TIMING returned, with P_TIMING_FIXED (R35, R160). -/
structure Timing where
  bank  : List Word
  fixed : List Word
deriving DecidableEq, Repr, Inhabited

/-- CTL.MR_ADDR: rank mask and MR index (R37). -/
structure MrAddr where
  mask : BitVec 2
  idx  : MrIndex
deriving DecidableEq, Repr, Inhabited

/-- The controller (R32 to R37). CTL.MR_TRIG is a write-only trigger and holds nothing. -/
structure Ctl where
  mstr      : Mstr
  addrmap   : AddrMap
  odtmap    : Word
  odtcfg    : Word
  odtcfgSh0 : Word
  odtcfgSh1 : Word
  odtcfgSh2 : Word
  timing    : Timing
  arefEn    : Bool
  initCpl   : Bool
  srReq     : Bool
  opmode    : OpMode
  mrAddr    : MrAddr
  mrData    : Word
  mrBusy    : Bool
  vendorTim : Word
deriving DecidableEq, Repr, Inhabited

/-- The PHY (R38 to R40). Bit r of `calRankSel` says that rank slot r is a target. -/
structure Phy where
  rst        : Bool
  lat        : List Nat
  sdq        : List Nat
  caDrive    : Nat
  caOdt      : Nat
  dbiEn      : Bool
  odtOvr     : Option Nat
  polarity   : Nat
  caDelay    : Word
  dxDrive    : Lanes Nat
  dxOdt      : Lanes Nat
  vref       : Lanes Nat
  bitdly0    : Lanes (BitVec 6)
  bitdly1    : Lanes (BitVec 6)
  calReadout : Lanes Nat
  initDone   : Bool
  calRankSel : BitVec 2
  calTrig    : Bool
  calDone    : BitVec 4
  calFail    : Bool
  coarseBase : BitVec 3
deriving DecidableEq, Repr, Inhabited

/-- The device's mode registers, rank 0 and rank 1, one value per MR index (R41). -/
structure DeviceMr where
  rank0 : Vector Word 16
  rank1 : Vector Word 16
deriving DecidableEq, Repr, Inhabited

/-- Where one byte offset leads (R77). -/
structure Coords where
  rank : Nat
  bg   : Nat
  bank : Nat
  row  : Nat
  col  : Nat
  lane : Nat
deriving DecidableEq, Repr, Inhabited

/-- A step of an environment agent, with the outcome it draws (R318). -/
inductive EnvMove where
  /-- The PLL sets PLL.LOCK (R123). -/
  | pllLock
  /-- The PHY init engine sets PHY.INIT_DONE (R230). -/
  | phyInitDone
  /-- The controller mode logic moves CTL.OPMODE (R231). -/
  | opmode (m : OpMode)
  /-- The MR engine carries out the pending mode-register write (R232). -/
  | mrComplete
  /-- The calibration engine adds completion bits, may set the failure flag and sets the readouts (R256). -/
  | calRespond (bits : BitVec 4) (fail : Bool) (readouts : Lanes Nat)
deriving DecidableEq, Repr, Inhabited

/-- One move of one agent (R20, R363). The DRAM device moves only inside a host access or an MR write. -/
inductive Turn where
  | host
  | sequencer
  | env (m : EnvMove)
  /-- The block reset from outside (R341). -/
  | blockReset
deriving DecidableEq, Repr, Inhabited

end Sys2Proof.Machine
end

