-- ==== Sys2Proof/Config.lean ====
section
/-! DEFINITION. What an implementation fixes and what the spec leaves open (R7, R42, R318, R340). An `opaque`
constant has no body: nothing in Lean can prove a value of it, so a claim holds for every value. -/

namespace Sys2Proof.Config

open Sys2Proof.Machine

/-! ## OPEN parameters that only data paths read -/

/-- P_SEQ_BASE: the host address of the block window (R7). Accesses name offsets (log 24). -/
opaque seqBase : Nat

/-- P_DRAM_BASE: the host address of DRAM byte offset 0 (R7). Accesses name offsets (log 24). -/
opaque dramBase : Nat

/-- P_PLL_FREQ: the achieved frequency for a target in MHz (R123). -/
opaque pllFreq : Nat → Nat

/-- P_ODTMAP_FULL (R151). -/
opaque odtMapFull : Word

/-- P_ODTMAP_HALF (R151). -/
opaque odtMapHalf : Word

/-- P_ODTTIM_DDR3 (R152). -/
opaque odtTimDdr3 : Word

/-- P_ODTTIM_LPDDR4 (R152). -/
opaque odtTimLpddr4 : Word

/-- P_ODT_LP3_PACK of the sub-fields q and temp2 (R153). -/
opaque odtLp3Pack : Nat → Nat → Word

/-- P_ODT_DDR4_LO of MR4 (R154). -/
opaque odtDdr4Lo : Word → Nat

/-- P_ODT_DDR4_PACK of the sub-fields hi and lo (R154). -/
opaque odtDdr4Pack : Nat → Nat → Word

/-- P_TIMING: the Timing Parameter Translator, a total function (R161). -/
opaque timing : Nat → Tech → List Bool → List Word

/-- P_TIMING_FIXED (R162). -/
opaque timingFixed : List Word

/-- P_LAT_TABLE (R183). -/
opaque latTable : Tech → List Nat

/-- P_SDQ_TABLE by routing variant (R183). -/
opaque sdqTable : Fin 2 → List Nat

/-- P_VREF_DEFAULT (R185). -/
opaque vrefDefault : Tech → Nat

/-- P_ODT_OVERRIDE, read for LPDDR3 and DDR4 (R187). -/
opaque odtOverride : Tech → Nat

/-- P_POLARITY (R188). -/
opaque polarity : Tech → Nat

/-- P_LP4_VENDOR_VALUE (R223). -/
opaque lp4VendorValue : Word

/-- The address of P_SYSCFG_WRITE (R182). -/
opaque sysCfgAddr : Nat

/-- The value of P_SYSCFG_WRITE (R182). -/
opaque sysCfgValue : Word

/-- P_LP4_POKE_VALUE (R189). -/
opaque lp4PokeValue : Word

/-- P_ADDRMAP_ENC: the (register, value) words that hold an address map (R147). Used only where a claim is about
register bits. -/
opaque addrmapEnc : AddrMap → List (Nat × Word)

/-! ## Parameters with a value (R7) -/

/-- P_LANES (R7). -/
def lanes : Nat := 4

/-- P_SETTLE_US, in microseconds: a lower bound that the untimed model does not count (R352, log 19).
UNVERIFIED literal of the source (R15, log 25). -/
def settleUs : Nat := 5

/-- P_CAL_ATTEMPTS (R7, R250). UNVERIFIED literal of the source (R15, log 25). -/
def calAttempts : Nat := 5

/-- The literal host address that LPDDR4 pokes (R189). UNVERIFIED literal of the source (R15, log 25). -/
def lp4PokeAddr : Nat := 0x03102ea8

/-- P_PROBE_V0 (R7). -/
def probeV0 : Nat := 0x00000000

/-- P_PROBE_V1 (R7). -/
def probeV1 : Nat := 0xAA55AA55

/-- The board whose fields no document gives a value: PARAMS, DEV and the other OPEN data of R7. -/
opaque board : Board

/-- The board at State.reset: the OPEN data stay opaque, and each decided parameter has the value of R7
(log 18; the bit of P_MR6_TE_BIT is PRESUMED by the spec itself from general knowledge, log 23). -/
def boardAtReset : Board :=
  { board with
    halfStartOffset := 3
    secondPass := .rankw0
    mr6TeBit := 7
    calMaskFull := 0xF
    calMaskHalf := 0x3 }

/-! ## Free values (R318, R340): each takes a counter of the state, so that every use has its own value, or the operands of
the arithmetic it comes from -/

/-- The value of a DRAM byte that holds none: never written, or in an absent rank or lane (R78, R79, R318(f)). -/
opaque drawByte : Nat → Byte

/-- The controller's unspecified fields after block reset or domain_reset (R124, R340). -/
opaque anyCtl : Nat → Ctl

/-- The PHY's unspecified fields after block reset or domain_reset (R124, R340). -/
opaque anyPhy : Nat → Phy

/-- The clock unit's unspecified fields after block reset (R340). -/
opaque anyCcu : Nat → Ccu

/-- The PLL's unspecified fields after block reset (R340). -/
opaque anyPll : Nat → Pll

/-- The unspecified device mode registers after block reset or domain_reset (R124, R340). -/
opaque anyDevMr : Nat → DeviceMr

/-- A host subtraction whose result would lie below zero, where R10 has no number (log 31). -/
opaque subBelowZero : Nat → Nat → Nat

/-- A host division by zero, of which R10 gives no value (log 31). -/
opaque divByZero : Nat → Nat

/-- A host remainder modulo zero, of which R10 gives no value (log 31). -/
opaque modByZero : Nat → Nat

/-- A host slice v[hi:lo] with hi < lo, of which R10 gives no value, of hi, lo and v (log 31). -/
opaque reversedSlice : Nat → Nat → Nat → Nat

/-- The move that some agent makes when the state lists no more of them (R20, R318, log 2). -/
opaque schedule : Nat → Turn

end Sys2Proof.Config
end

