-- ==== Sys2Proof/Machine/State.lean ====
section
/-! DEFINITION. The machine's state, its faults and refusals, and the state after reset (10_state.md, R340). -/

namespace Sys2Proof.Machine

/-- Bytes by address, addresses strictly rising. Here: the DRAM device's cells (R41, R79). An address that is not
listed holds no byte, so no entry can equal what an unlisted address reads as: a read of it is a draw (log 8). -/
abbrev Memory := List Host.Cell

/-- The canonical form of a memory: addresses strictly rising. -/
abbrev Memory.wf (m : Memory) : Prop := m.Pairwise (fun x y => x.1 < y.1)

/-- The host agent (R21, R109): its program, the line it runs next, its temporaries (number, value) and the value of
the RETURN it has executed, if any. -/
structure HostState where
  prog  : List HostLine
  pc    : Nat
  temps : List (Nat × Nat)
  ret   : Option Nat
deriving DecidableEq, Repr, Inhabited

/-- The whole machine: every agent's state (R20), and the model's own fields that say who moves next. -/
structure State where
  /-- The parameters, never written (R42, log 1). -/
  board      : Board
  /-- FSM, the block's program counter (R22). -/
  fsm        : Micro
  /-- STATUS.BUSY (R24). -/
  busy       : Bool
  /-- STATUS.DONE (R24). -/
  cmdDone    : Bool
  /-- STATUS.RESULT (R24). -/
  result     : Result
  /-- STATUS.FATAL (R24, R312). -/
  fatal      : Bool
  /-- STATUS.OVR (R24, R313). -/
  ovr        : Bool
  /-- STATUS.STAGE (R30). -/
  stage      : Stage
  /-- STATUS.AM_DONE (R24). -/
  amDone     : Bool
  /-- STATUS.ODT_DONE (R24). -/
  odtDone    : Bool
  /-- STATUS.TIM_DONE (R24). -/
  timDone    : Bool
  /-- STATUS.ATTEMPTS (R24). -/
  attempts   : Nat
  /-- GEOM[16:0] (R25). -/
  geom       : BitVec 17
  /-- CAL_BASE.BASE (R26). -/
  calBase    : BitVec 3
  /-- AG: ACTIVE_GEOM[16:0] (R26, R29). -/
  ag         : BitVec 17
  /-- ACTIVE_GEOM.VALID (R26). -/
  agValid    : Bool
  /-- CUR_CMD (R28, R29). -/
  curCmd     : BitVec 8
  /-- MR_IDX (R28). -/
  mrIdx      : Nat
  /-- PASS (R28). -/
  pass       : Fin 2
  /-- ATT (R28). -/
  att        : Nat
  /-- PASS_OK (R28). -/
  passOk     : Bool
  /-- SUB (R28, R270). -/
  sub        : Nat
  /-- The GEOM operand that CFG_ADDRMAP or CFG_ODT has read (R140, R150, R355, log 9). -/
  opGeom     : BitVec 17
  /-- STARTED, the PHY init engine's hidden flag (R230). -/
  phyStarted : Bool
  /-- The clock and reset unit (R31). -/
  ccu        : Ccu
  /-- The PLL (R31). -/
  pll        : Pll
  /-- The controller (R32 to R37). -/
  ctl        : Ctl
  /-- The PHY (R38 to R40). -/
  phy        : Phy
  /-- The device's cells (R41, R78). -/
  dram       : Memory
  /-- The device's mode registers (R41). -/
  devMr      : DeviceMr
  /-- The literal host-address writes performed, newest first (R11, R182, R189, log 14). -/
  regWrites  : List (Nat × Word)
  /-- The host agent (R109). -/
  host       : HostState
  /-- The move the next step makes (log 2). -/
  turn       : Turn
  /-- The moves after it, oldest first (log 2). -/
  sched      : List Turn
  /-- How many moves have been drawn from Config.schedule (log 2). -/
  tick       : Nat
  /-- How many free values have been drawn (log 6, 7, 8). -/
  draws      : Nat
deriving DecidableEq, Repr

/-- Why a run stops: the host access faults of R311. Each is raised by the host's own access, changes no state, and is
the outcome of the host program (R362(b), log 15). Safe: no next state is claimed. -/
inductive Fault where
  /-- A block-window access that is not a naturally aligned 32-bit access (R72). Raised by a host access. Safe. -/
  | hostBadAccess
  /-- A DRAM access of a width other than 1, 2, 4, 8 or not naturally aligned (R74). Raised by a host access. Safe. -/
  | dramMisaligned
  /-- A DRAM access while STAGE is not OPERATIONAL (R75). Raised by a host access. Safe. -/
  | dramNotReady
  /-- A DRAM access beyond CAP_cfg or P_DRAM_WINDOW (R76). Raised by a host access. Safe. -/
  | dramRange
deriving DecidableEq, Repr

/-- Why the model has no meaning for an instruction. -/
inductive Refusal where
  /-- The instruction has no meaning in the model yet. Raised by a refused arm of `exec` (there is none). Safe. -/
  | notModelled (mnemonic : String)
deriving DecidableEq, Repr

/-- What one move, one meaning or one step can answer. -/
abbrev StepOutcome := Host.Outcome State Fault Refusal

/-- DESIGN CHOICE (log 5): the environment's registers at State.reset, which R340 leaves unspecified. -/
def ctlAtReset : Ctl :=
  { mstr := { tech := .ddr3, half := 0, ranks := 0 }
    addrmap := { bg := Vector.replicate 2 none, col := Vector.replicate 9 none, bank := Vector.replicate 3 none,
                 row := Vector.replicate 18 none, rank0 := none }
    odtmap := 0, odtcfg := 0, odtcfgSh0 := 0, odtcfgSh1 := 0, odtcfgSh2 := 0
    timing := { bank := [], fixed := [] }
    arefEn := false, initCpl := false, srReq := false, opmode := .init
    mrAddr := { mask := 0, idx := 0 }, mrData := 0, mrBusy := false, vendorTim := 0 }

/-- DESIGN CHOICE (log 5): the PHY's registers at State.reset, which R340 leaves unspecified. -/
def phyAtReset : Phy :=
  { rst := false, lat := [], sdq := [], caDrive := 0, caOdt := 0, dbiEn := false, odtOvr := none, polarity := 0
    caDelay := 0, dxDrive := ⟨0, 0, 0, 0⟩, dxOdt := ⟨0, 0, 0, 0⟩, vref := ⟨0, 0, 0, 0⟩
    bitdly0 := ⟨0, 0, 0, 0⟩, bitdly1 := ⟨0, 0, 0, 0⟩, calReadout := ⟨0, 0, 0, 0⟩
    initDone := false, calRankSel := 0, calTrig := false, calDone := 0, calFail := false, coarseBase := 0 }

/-- The machine right after reset (R340). The block's registers have the values of R340; the environment's have the
values log 5 names; no host program is loaded (log 3) and the host is to move first (log 2). -/
def State.reset : State :=
  { board := Config.boardAtReset
    fsm := .idle, busy := false, cmdDone := false, result := .ok, fatal := false, ovr := false, stage := .reset
    amDone := false, odtDone := false, timDone := false, attempts := 0
    geom := 0x3829, calBase := 0, ag := 0, agValid := false
    curCmd := 0, mrIdx := 0, pass := 0, att := 0, passOk := false, sub := 0, opGeom := 0, phyStarted := false
    ccu := { bridgeEn := false, busGate := false, modClkEn := false, dramRst := true }
    pll := { freq := 0, lock := false }
    ctl := ctlAtReset, phy := phyAtReset, dram := []
    devMr := { rank0 := Vector.replicate 16 0, rank1 := Vector.replicate 16 0 }
    regWrites := []
    host := { prog := [], pc := 0, temps := [], ret := none }
    turn := .host, sched := [], tick := 0, draws := 0 }

end Sys2Proof.Machine
end

