-- ==== Sys2Proof/Machine/Flags.lean ====
section
/-! DEFINITION. The codes of the enumerated fields and the words the host reads: STATUS, GEOM, CAL_BASE and
ACTIVE_GEOM (R22 to R27). STATUS is the block's only flags register (R42). -/

namespace Sys2Proof.Machine

/-- The micro-step's code, STATUS.FSM (R22, R108, and the pseudocode of each command). -/
def microCode (m : Micro) : BitVec 8 :=
  match m with
  | .idle => 0x00
  | .ckHold => 0x10
  | .ckSettleA => 0x11
  | .ckPll => 0x12
  | .ckLock => 0x13
  | .ckModclk => 0x14
  | .ckRstRel => 0x15
  | .ckSettleB => 0x16
  | .ckBusgate => 0x17
  | .ckBridge => 0x18
  | .amValidate => 0x20
  | .amMstr => 0x21
  | .amMap => 0x22
  | .odtMap => 0x28
  | .odtTim => 0x29
  | .odtSh0 => 0x2A
  | .odtSh1 => 0x2B
  | .odtSh2 => 0x2C
  | .timWrite => 0x30
  | .phyRstRel => 0x40
  | .phySyscfg => 0x41
  | .phyLat => 0x42
  | .phySdq => 0x43
  | .phyDrive => 0x44
  | .phyVref => 0x45
  | .phyQuirks => 0x46
  | .phyLp4 => 0x47
  | .phyCadly => 0x48
  | .phyBdly0 => 0x49
  | .phyBdly1 => 0x4A
  | .dfiArefOff => 0x60
  | .dfiInitSet => 0x61
  | .dfiInitClr => 0x62
  | .dfiWaitPhy => 0x63
  | .dfiSrExit => 0x64
  | .dfiWaitNormal => 0x65
  | .dfiMrwSetup => 0x66
  | .dfiMrwTrig => 0x67
  | .dfiMrwPoll => 0x68
  | .dfiVendor => 0x69
  | .dfiArefOn => 0x6A
  | .calStart => 0x80
  | .calAttempt => 0x81
  | .calTrig => 0x82
  | .calPoll => 0x83
  | .calUntrig => 0x84
  | .calDerive => 0x85

/-- The command whose pseudocode a micro-step belongs to (R108); none for IDLE. -/
def microOwner (m : Micro) : Option Instr :=
  match m with
  | .idle => none
  | .ckHold | .ckSettleA | .ckPll | .ckLock | .ckModclk | .ckRstRel | .ckSettleB | .ckBusgate | .ckBridge =>
    some .clkInit
  | .amValidate | .amMstr | .amMap => some .cfgAddrmap
  | .odtMap | .odtTim | .odtSh0 | .odtSh1 | .odtSh2 => some .cfgOdt
  | .timWrite => some .cfgTiming
  | .phyRstRel | .phySyscfg | .phyLat | .phySdq | .phyDrive | .phyVref | .phyQuirks | .phyLp4 | .phyCadly
  | .phyBdly0 | .phyBdly1 => some .phyInit
  | .dfiArefOff | .dfiInitSet | .dfiInitClr | .dfiWaitPhy | .dfiSrExit | .dfiWaitNormal | .dfiMrwSetup
  | .dfiMrwTrig | .dfiMrwPoll | .dfiVendor | .dfiArefOn => some .dfiInit
  | .calStart | .calAttempt | .calTrig | .calPoll | .calUntrig | .calDerive => some .rdCal

/-- STATUS.RESULT's code (R310). -/
def resultCode (r : Result) : BitVec 3 :=
  match r with
  | .ok => 0
  | .calFail => 1
  | .configInvalid => 2
  | .illegalCmd => 3
  | .seqError => 4

/-- STATUS.STAGE's code (R30). -/
def stageCode (g : Stage) : BitVec 3 :=
  match g with
  | .reset => 0
  | .clocked => 1
  | .phyReady => 2
  | .dfiDone => 3
  | .operational => 4
  | .calFailed => 5

/-- The STATUS word (R24): reserved [31:28], ATTEMPTS, FSM, TIM_DONE, ODT_DONE, AM_DONE, STAGE, OVR, FATAL,
reserved [7:5], RESULT, DONE, BUSY. -/
def statusWord (s : State) : Word :=
  0#4 ++ BitVec.ofNat 4 s.attempts ++ microCode s.fsm ++ BitVec.ofBool s.timDone ++ BitVec.ofBool s.odtDone
    ++ BitVec.ofBool s.amDone ++ stageCode s.stage ++ BitVec.ofBool s.ovr ++ BitVec.ofBool s.fatal ++ 0#3
    ++ resultCode s.result ++ BitVec.ofBool s.cmdDone ++ BitVec.ofBool s.busy

/-- The GEOM word: bits [31:17] read 0 (R25). -/
def geomWord (s : State) : Word := 0#15 ++ s.geom

/-- The CAL_BASE word: bits [31:3] read 0 (R26). -/
def calBaseWord (s : State) : Word := 0#29 ++ s.calBase

/-- The ACTIVE_GEOM word: VALID at bit 31, bits [30:17] read 0 (R26). -/
def activeGeomWord (s : State) : Word := BitVec.ofBool s.agValid ++ 0#14 ++ s.ag

/-- What a 32-bit read of a block register returns (R23 to R27); CMD and the reserved offsets read 0. -/
def readBlockReg (s : State) (off : BitVec 8) : Word :=
  if off = 0x04#8 then statusWord s
  else if off = 0x08#8 then geomWord s
  else if off = 0x0C#8 then calBaseWord s
  else if off = 0x10#8 then activeGeomWord s
  else 0#32

end Sys2Proof.Machine
end

