-- ==== Sys2Proof/Machine/Operands.lean ====
section
/-! DEFINITION. Operand forms and the pure derivations the commands use: geometry fields and their check, the address
map, ODT timing, mode-register lists, delay fields, calibration targets, and the data path's decode. -/

namespace Sys2Proof.Machine

/-! ## Geometry operands (R9, R25, R105, R141) -/

/-- The six fields of a GEOM word, zero-extended (R105). -/
def geomFields (w : BitVec 17) : Geometry :=
  { cols  := (w.extractLsb' 0 4).toNat
    banks := (w.extractLsb' 4 4).toNat
    bg    := (w.extractLsb' 8 2).toNat
    rows  := (w.extractLsb' 10 5).toNat
    rankw := (w.extractLsb' 15 1).toNat
    half  := (w.extractLsb' 16 1).toNat }

/-- `valid(g)` (R141). The bus width is not checked. -/
def validGeometry (g : Geometry) : Bool :=
  8 ≤ g.cols && g.cols ≤ 12 && (g.banks == 2 || g.banks == 3) && g.bg ≤ 2 && 14 ≤ g.rows && g.rows ≤ 18
    && g.rankw ≤ 1

/-- `bw`: the byte-to-word shift of a bus width (R76, R283). -/
def busShift (half : Nat) : Nat := if half = 1 then 1 else 2

/-- CAP_cfg (R76). -/
def capacity (g : Geometry) : Nat :=
  2 ^ (g.cols + g.bg + g.banks + g.rows + g.rankw) * 2 ^ busShift g.half

/-- The rank mask of a rank width (R32, R224). -/
def rankMask (rankw : Nat) : BitVec 2 := if rankw = 1 then 0b11 else 0b01

/-! ## The address map (R142) -/

/-- A vector from a function of the index. -/
def tabulate {α : Type} (n : Nat) (f : Nat → α) : Vector α n := ⟨((List.range n).map f).toArray, by simp⟩

/-- `width` positions from `off` on, the entries beyond the width DISABLED (R142). -/
def allocate (off width j : Nat) : Option Nat := if j < width then some (off + j) else none

/-- The start offset of the allocation (R143). -/
def startOffset (b : Board) (g : Geometry) : Nat := if g.half = 1 then b.halfStartOffset else 3

/-- `addrmap(g)` from a start offset: bank groups, columns 3 and up, banks, rows, rank, in this order (R142). -/
def addrmap (start : Nat) (g : Geometry) : AddrMap :=
  let offCol := start + g.bg
  let offBank := offCol + (g.cols - 3)
  let offRow := offBank + g.banks
  let offRank := offRow + g.rows
  { bg    := tabulate 2 (allocate start g.bg)
    col   := tabulate 9 (allocate offCol (g.cols - 3))
    bank  := tabulate 3 (allocate offBank g.banks)
    row   := tabulate 18 (allocate offRow g.rows)
    rank0 := allocate offRank g.rankw 0 }

/-! ## ODT timing (R151 to R154) -/

/-- The LPDDR3 sub-field q: truncating, on unbounded naturals (R153). -/
def lp3Q (clk : Nat) : Nat := clk * 7 / 2000

/-- The LPDDR3 sub-field temp2 (R153). -/
def lp3Temp2 (clk : Nat) : Nat := if clk < 400 then 0x3 else 0x4

/-- The DDR4 high sub-field: 7 when MR4 bit 12 is set, else 6 (R154). -/
def ddr4OdtHi (mr4 : Word) : Nat := ((mr4 >>> 12) &&& 1).toNat + 6

/-- `odt_timing(PARAMS)` (R152). -/
def odtTiming (p : Params) : Word :=
  match p.tech with
  | .ddr3 => Config.odtTimDdr3
  | .lpddr4 => Config.odtTimLpddr4
  | .lpddr3 => Config.odtLp3Pack (lp3Q p.clk) (lp3Temp2 p.clk)
  | .ddr4 => Config.odtDdr4Pack (ddr4OdtHi p.mr.mr4) (Config.odtDdr4Lo p.mr.mr4)

/-- The rank-to-ODT routing constant of a bus width (R151). -/
def odtRouting (half : Nat) : Word := if half = 1 then Config.odtMapHalf else Config.odtMapFull

/-! ## PHY operands (R184 to R192) -/

/-- The same value in every lane (R184, R185). -/
def allLanes {α : Type} (v : α) : Lanes α := ⟨v, v, v, v⟩

/-- `vref(PARAMS)` (R185). -/
def vrefOf (p : Params) : Nat :=
  match p.vrefOverride with
  | some v => v
  | none => Config.vrefDefault p.tech

/-- Data-bus inversion by technology (R186). -/
def dbiOf (t : Tech) : Bool :=
  match t with
  | .ddr3 => false
  | .ddr4 => true
  | .lpddr3 => false
  | .lpddr4 => true

/-- The ODT override by technology, `none` for NONE (R187). -/
def odtOverrideOf (t : Tech) : Option Nat :=
  match t with
  | .ddr3 => none
  | .ddr4 => some (Config.odtOverride .ddr4)
  | .lpddr3 => some (Config.odtOverride .lpddr3)
  | .lpddr4 => none

/-- The four 6-bit lane fields of a bit-delay word: lane l is bits [6l+5:6l] (R191, R192). -/
def bitDelayLanes (w : Word) : Lanes (BitVec 6) :=
  ⟨w.extractLsb' 0 6, w.extractLsb' 6 6, w.extractLsb' 12 6, w.extractLsb' 18 6⟩

/-! ## Mode registers (R221, R222) -/

/-- `mr_list(PARAMS)`: the (index, value) pairs of a technology, in write order (R221). -/
def mrList (t : Tech) (mr : MrPresets) (teBit : Nat) : List (MrIndex × Word) :=
  match t with
  | .ddr3 => [(0, mr.mr0), (1, mr.mr1), (2, mr.mr2), (3, mr.mr3)]
  | .ddr4 =>
    [(0, mr.mr0), (1, mr.mr1), (2, mr.mr2), (3, mr.mr3), (4, mr.mr4), (5, mr.mr5),
     (6, mr.mr6 ||| (1#32 <<< teBit)), (6, mr.mr6 &&& ~~~(1#32 <<< teBit))]
  | .lpddr3 => [(1, mr.mr1), (2, mr.mr2), (3, mr.mr3), (11, mr.mr11)]
  | .lpddr4 =>
    [(0, mr.mr0), (1, mr.mr1), (2, mr.mr2), (3, mr.mr3), (4, mr.mr4), (11, mr.mr11),
     (12, mr.mr12), (13, mr.mr13), (14, mr.mr14)]

/-- The list DFI_INIT writes on a board. -/
def boardMrList (b : Board) : List (MrIndex × Word) := mrList b.params.tech b.params.mr b.mr6TeBit

/-! ## Read calibration (R253, R254, R257) -/

/-- `mask(AG)`: the byte lanes a pass waits for (R257). -/
def calMask (b : Board) (half : Nat) : BitVec 4 := if half = 1 then b.calMaskHalf else b.calMaskFull

/-- `targets(AG, PASS)`: bit r is rank slot r (R254). -/
def calTargets (c : SecondPassCond) (rankw : Nat) (pass : Fin 2) : BitVec 2 :=
  match c with
  | .rankw0 => if pass = 0 then rankMask rankw else 0b10
  | .rankw1 => if pass = 0 then 0b01 else 0b10

/-- `second_pass(AG)` (R254). -/
def secondPassRuns (c : SecondPassCond) (rankw : Nat) : Bool :=
  match c with
  | .rankw0 => rankw == 0
  | .rankw1 => rankw == 1

/-- The largest of the four readouts (R253). -/
def maxReadout (r : Lanes Nat) : Nat := max (max r.lane0 r.lane1) (max r.lane2 r.lane3)

/-- The coarse base: clamp to 3 bits as min, add 2, mask to 3 bits (R253). -/
def coarseBaseOf (r : Lanes Nat) : BitVec 3 := BitVec.ofNat 3 ((min (maxReadout r) 7 + 2) % 8)

/-! ## The data path's decode (R77, R78) -/

/-- The value a logical address bit takes from a word address: its position's bit, or 0 when DISABLED (R77). -/
def mappedBit (e : Option Nat) (w : Nat) : Bool :=
  match e with
  | some p => w.testBit p
  | none => false

/-- Σ over i < n of bit i at weight 2^i. -/
def gather (n : Nat) (f : Nat → Bool) : Nat :=
  match n with
  | 0 => 0
  | k + 1 => gather k f + (if f k then 2 ^ k else 0)

/-- Logical column bit c of a word address: COL0 to COL2 are hardwired (R77, R144). -/
def columnBit (m : AddrMap) (w c : Nat) : Bool :=
  if c < 3 then w.testBit c else mappedBit (m.col[c - 3]?).join w

/-- The coordinates of a byte offset under an address map and a geometry (R77). -/
def decodeOffset (m : AddrMap) (g : Geometry) (a : Nat) : Coords :=
  let w := a / 2 ^ busShift g.half
  { rank := if mappedBit m.rank0 w then 1 else 0
    bg   := gather g.bg (fun j => mappedBit (m.bg[j]?).join w)
    bank := gather g.banks (fun b => mappedBit (m.bank[b]?).join w)
    row  := gather g.rows (fun r => mappedBit (m.row[r]?).join w)
    col  := gather g.cols (columnBit m w)
    lane := a % 2 ^ busShift g.half }

/-- The number under which a cell's byte is listed: the coordinates the device keeps, in mixed radix (R78, log 21). -/
def cellKey (d : DeviceGeometry) (c : Coords) : Nat :=
  ((((c.rank * 2 ^ d.bg + c.bg) * 2 ^ d.banks + c.bank) * 2 ^ d.rows + c.row) * 2 ^ d.cols + c.col) * 4 + c.lane

/-- The coordinates a device keeps: each field modulo its own width (R78). -/
def keptCoords (d : DeviceGeometry) (c : Coords) : Coords :=
  { c with bg := c.bg % 2 ^ d.bg, bank := c.bank % 2 ^ d.banks, row := c.row % 2 ^ d.rows, col := c.col % 2 ^ d.cols }

/-- The cell the coordinates reach, or none in an absent rank or an unwired lane (R78). -/
def deviceCell (d : DeviceGeometry) (c : Coords) : Option Nat :=
  if d.ranks ≤ c.rank then none
  else if d.half = 1 ∧ 2 ≤ c.lane then none
  else some (cellKey d (keptCoords d c))

/-! ## Host arithmetic (R10, R109) -/

/-- A truth value as a number. -/
def boolNat (b : Bool) : Nat := if b then 1 else 0

/-- The value of an operator on two naturals (R10, R109). A result that R10 does not state, of a difference below zero or
a division by zero, is a free value (log 31). -/
def evalOp (op : HostOp) (a b : Nat) : Nat :=
  match op with
  | .add => a + b
  | .sub => if b ≤ a then a - b else Config.subBelowZero a b
  | .mul => a * b
  | .div => if b = 0 then Config.divByZero a else a / b
  | .mod => if b = 0 then Config.modByZero a else a % b
  | .shl => a <<< b
  | .shr => a >>> b
  | .and => a &&& b
  | .or => a ||| b
  | .min => min a b
  | .max => max a b
  | .eq => boolNat (a == b)
  | .ne => boolNat (a != b)
  | .lt => boolNat (decide (a < b))
  | .le => boolNat (decide (a ≤ b))

/-- The value of a temporary; one that was never assigned reads 0 (log 16). -/
def tempValue (temps : List (Nat × Nat)) (t : Nat) : Nat :=
  match temps with
  | [] => 0
  | (k, v) :: rest => if k = t then v else tempValue rest t

/-- Assign a temporary. -/
def setTemp (temps : List (Nat × Nat)) (t v : Nat) : List (Nat × Nat) :=
  match temps with
  | [] => [(t, v)]
  | (k, x) :: rest => if k = t then (t, v) :: rest else (k, x) :: setTemp rest t v

/-- The value of a host expression (R10, R109). A slice v[hi:lo] with hi < lo, of which R10 gives no value, is a free
value (log 31). -/
def evalExpr (temps : List (Nat × Nat)) (e : HostExpr) : Nat :=
  match e with
  | .lit n => n
  | .tmp t => tempValue temps t
  | .bin op a b => evalOp op (evalExpr temps a) (evalExpr temps b)
  | .slice hi lo v =>
    if hi < lo then Config.reversedSlice hi lo (evalExpr temps v) else evalExpr temps v / 2 ^ lo % 2 ^ (hi + 1 - lo)
  | .not width v => 2 ^ width - 1 - evalExpr temps v % 2 ^ width
  | .cat width a b => evalExpr temps a * 2 ^ width + evalExpr temps b % 2 ^ width
  | .cond c a b => if evalExpr temps c = 0 then evalExpr temps b else evalExpr temps a

end Sys2Proof.Machine
end

