-- ==== Sys2Proof/Machine/Ops.lean ====
section
/-! DEFINITION. The named operations every meaning is written over: memory, the DRAM data path, literal writes, a
command's acceptance and its end (with or without an error), the domain reset and the block reset, and passing the
turn. -/

namespace Sys2Proof.Machine

/-! ## Memory (canonical: addresses strictly rising) -/

/-- The byte at an address, if one is listed. -/
def Memory.get (m : Memory) (a : Nat) : Option Byte :=
  match m with
  | [] => none
  | (k, v) :: rest => if k = a then some v else Memory.get rest a

/-- List a byte at an address, keeping the addresses rising. -/
def Memory.set (m : Memory) (a : Nat) (b : Byte) : Memory :=
  match m with
  | [] => [(a, b)]
  | (k, v) :: rest =>
    if a < k then (a, b) :: (k, v) :: rest
    else if a = k then (a, b) :: rest
    else (k, v) :: Memory.set rest a b

/-! ## The DRAM data path (R73 to R79) -/

/-- The device cell a byte offset reaches, if any (R77, R78). -/
def cellOf (s : State) (a : Nat) : Option Nat :=
  deviceCell s.board.dev (decodeOffset s.ctl.addrmap (geomFields s.ag) a)

/-- Write one byte at an offset; a write that reaches no cell is dropped (R78). -/
def dramWriteByte (s : State) (a : Nat) (b : Byte) : State :=
  match cellOf s a with
  | some k => { s with dram := Memory.set s.dram k b }
  | none => s

/-- The byte stored for an offset, if its cell exists and has been written since CLK_INIT (R78, R79). -/
def dramStored (s : State) (a : Nat) : Option Byte :=
  match cellOf s a with
  | some k => Memory.get s.dram k
  | none => none

/-- One byte of a read: the stored byte, or draw number `d` (R79, log 8). -/
def dramReadByte (s : State) (a d : Nat) : Byte :=
  match dramStored s a with
  | some b => b
  | none => Config.drawByte d

/-- Byte i of a value (R73). -/
def byteOf (v i : Nat) : Byte := BitVec.ofNat 8 (v / 2 ^ (8 * i))

/-- `MemWrite(off, n, v)`: byte i of v goes to offset off + i (R73). -/
def memWrite (s : State) (off n v : Nat) : State :=
  match n with
  | 0 => s
  | k + 1 => dramWriteByte (memWrite s off k v) (off + k) (byteOf v k)

/-- `MemRead(off, n)`: Σ byte(off + i)·2^(8i); byte i takes draw number draws + i if it holds none (R73, R79). -/
def memRead (s : State) (off n : Nat) : Nat :=
  match n with
  | 0 => 0
  | k + 1 => memRead s off k + (dramReadByte s (off + k) (s.draws + k)).toNat * 2 ^ (8 * k)

/-- Whether a DRAM access faults, and how: width and alignment, then readiness, then range (R74 to R76, R311). -/
def dramCheck (s : State) (off n : Nat) : Option Fault :=
  if ¬(n = 1 ∨ n = 2 ∨ n = 4 ∨ n = 8) ∨ off % n ≠ 0 then some .dramMisaligned
  else if s.stage ≠ .operational then some .dramNotReady
  else if capacity (geomFields s.ag) < off + n ∨ s.board.dramWindow < off + n then some .dramRange
  else none

/-! ## Literal writes (R11) -/

/-- `RegWrite(addr, v)`: a 32-bit write to a literal host address. What it does there is not in the spec; that it is
performed, and in which order, is kept (R182, R189, log 14). -/
def regWrite (s : State) (addr : Nat) (v : Word) : State :=
  { s with regWrites := (addr, v) :: s.regWrites }

/-! ## A command's acceptance and end (R106, R313, R314). There is no trap and no return: a failing command ends with
its result code (R315, R316). -/

/-- `end(r)` and `raise r`: the command ends with a result code (R314). -/
def endCmd (r : Result) (s : State) : State :=
  { s with result := r, busy := false, cmdDone := true, fsm := .idle }

/-- The precondition of a command at acceptance (R106). -/
def precondition (i : Instr) (s : State) : Bool :=
  match i with
  | .clkInit => true
  | .cfgOdt => s.stage == .clocked
  | .cfgAddrmap => s.stage == .clocked
  | .cfgTiming => s.stage == .clocked
  | .phyInit => s.stage == .clocked && s.amDone && s.odtDone && s.timDone
  | .dfiInit => s.stage == .phyReady
  | .rdCal => s.stage == .dfiDone
  | .bringup => true

/-- The first micro-step of a command (R120, R140, R150, R160, R180, R210, R250, R270). -/
def firstMicro (i : Instr) : Micro :=
  match i with
  | .clkInit => .ckHold
  | .cfgOdt => .odtMap
  | .cfgAddrmap => .amValidate
  | .cfgTiming => .timWrite
  | .phyInit => .phyRstRel
  | .dfiInit => .dfiArefOff
  | .rdCal => .calStart
  | .bringup => .ckHold

/-- The GEOM operand of a command when it reads its operand: at its acceptance (R140, R150), or in BRINGUP at the
sub-command's first micro-step (R355). CFG_ADDRMAP and CFG_ODT read GEOM then (log 9). -/
def latchedGeom (i : Instr) (s : State) : BitVec 17 :=
  match i with
  | .cfgAddrmap => s.geom
  | .cfgOdt => s.geom
  | _ => s.opGeom

/-- What acceptance of a word with opcode `opc` writes (R313). -/
def accept (opc : BitVec 8) (s : State) : State :=
  { s with busy := true, cmdDone := false, result := .ok, curCmd := opc }

/-- Start an accepted command: its operand is read and FSM holds its first micro-step (R29, R313). BRINGUP starts at its
first sub-command (R270). -/
def startCommand (i : Instr) (s : State) : State :=
  { s with
    fsm := firstMicro i
    opGeom := latchedGeom i s
    sub := match i with
      | .bringup => 0
      | _ => s.sub }

/-- The host's CMD write of a legal command word, in the order of R313: FATAL, BUSY, precondition, start. -/
def issue (i : Instr) (s : State) : State :=
  if s.fatal then s
  else if s.busy then { s with ovr := true }
  else if precondition i s then startCommand i (accept i.opcode s)
  else endCmd .seqError (accept i.opcode s)

/-- The host's CMD write of an illegal word, in the order of R313: FATAL, BUSY, ILLEGAL_CMD. -/
def issueIllegal (w : Word) (s : State) : State :=
  if s.fatal then s
  else if s.busy then { s with ovr := true }
  else endCmd .illegalCmd (accept (opcField w) s)

/-- What one micro-step answers: the command goes on, or it ends with a result (R12, R314). -/
inductive MicroOut where
  | go (s : State)
  | fin (r : Result) (s : State)
deriving DecidableEq, Repr

/-- A micro-step that moves on to another (R22). -/
def goTo (m : Micro) (s : State) : MicroOut := .go { s with fsm := m }

/-- A command's step when it runs by itself: its end is the end of the command (R314). -/
def microAlone (o : MicroOut) : State :=
  match o with
  | .go t => t
  | .fin r t => endCmd r t

/-- An instruction in the agent's hands whose turn it is (log 4): the sequencer runs the micro-step FSM names (R22); the
host writes the command word to CMD (R313). Either way the machine goes on. -/
def runCommand (i : Instr) (micro : State → MicroOut) (s : State) : StepOutcome :=
  match s.turn with
  | .sequencer => .next (microAlone (micro s))
  | _ => .next (issue i s)

/-! ## Resets -/

/-- `domain_reset()` (R124): the controller, the PHY, the DRAM cells and the device mode registers become unspecified
(free values, log 7), but for the fields R124 names; STARTED is cleared (R230, log 11). -/
def domainReset (s : State) : State :=
  { s with
    ctl := { Config.anyCtl s.draws with mrBusy := false, opmode := .init }
    phy := { Config.anyPhy s.draws with rst := true, initDone := false, calTrig := false }
    dram := []
    devMr := Config.anyDevMr s.draws
    agValid := false
    phyStarted := false
    draws := s.draws + 1 }

/-- The block reset (R340, R341): the block's own state takes its reset values, the environment's becomes unspecified
(free values, log 6). The host, the board, the literal writes performed and the turns are outside the block. -/
def blockReset (s : State) : State :=
  { State.reset with
    board := s.board
    ccu := Config.anyCcu s.draws
    pll := Config.anyPll s.draws
    ctl := Config.anyCtl s.draws
    phy := Config.anyPhy s.draws
    dram := []
    devMr := Config.anyDevMr s.draws
    regWrites := s.regWrites
    host := s.host
    turn := s.turn
    sched := s.sched
    tick := s.tick
    draws := s.draws + 1 }

/-! ## Whose move it is -/

/-- Pass the turn: to the first listed move, or, when none is listed, to one that no rule fixes (R20, R318, log 2). -/
def passTurn (s : State) : State :=
  match s.sched with
  | m :: rest => { s with turn := m, sched := rest }
  | [] => { s with turn := Config.schedule s.tick, tick := s.tick + 1 }

end Sys2Proof.Machine
end

