-- ==== Sys2Proof/Machine/ClockReset.lean ====
section
/-! DEFINITION. CLK_INIT, the clock and reset stage (41_clock_reset.md, R120 to R125). -/

namespace Sys2Proof.Machine

/-- CLK_INIT's micro-steps (R120). A settling delay has no effect in the untimed model (R352, log 19); 0x13 holds until
the PLL locks, with no timeout (R123, R317). A code of another command holds (log 17). -/
def clkInitMicro (s : State) : MicroOut :=
  match s.fsm with
  | .ckHold =>
    goTo .ckSettleA (domainReset { s with
      stage := .reset
      ccu := { bridgeEn := false, busGate := false, modClkEn := false, dramRst := true } })
  | .ckSettleA => goTo .ckPll s
  | .ckPll => goTo .ckLock { s with pll := { freq := Config.pllFreq s.board.params.clk, lock := false } }
  | .ckLock => if s.pll.lock then goTo .ckModclk s else .go s
  | .ckModclk => goTo .ckRstRel { s with ccu := { s.ccu with modClkEn := true } }
  | .ckRstRel => goTo .ckSettleB { s with ccu := { s.ccu with dramRst := false } }
  | .ckSettleB => goTo .ckBusgate s
  | .ckBusgate => goTo .ckBridge { s with ccu := { s.ccu with busGate := true } }
  | .ckBridge =>
    .fin .ok { s with
      ccu := { s.ccu with bridgeEn := true }
      stage := .clocked
      amDone := false
      odtDone := false
      timDone := false
      agValid := false }
  | _ => .go s

/-- CLK_INIT (R120): legal in every stage. -/
def execClkInit (s : State) : StepOutcome := runCommand .clkInit clkInitMicro s

end Sys2Proof.Machine
end

