-- ==== Sys2Proof/Machine/Configurator.lean ====
section
/-! DEFINITION. CFG_ADDRMAP, CFG_ODT and CFG_TIMING, the controller configurator (42_controller_config.md, R140 to
R162). -/

namespace Sys2Proof.Machine

/-- CFG_ADDRMAP's micro-steps (R140): validation first, so that an invalid geometry writes no controller field
(R141), then master mode (R145), then the map and the latch AG (R142, R29). The geometry is the operand the
command has read (log 9). -/
def cfgAddrmapMicro (s : State) : MicroOut :=
  let g := geomFields s.opGeom
  match s.fsm with
  | .amValidate =>
    if validGeometry g then goTo .amMstr s else .fin .configInvalid { s with fatal := true }
  | .amMstr =>
    goTo .amMap { s with ctl := { s.ctl with
      mstr := { tech := s.board.params.tech, half := g.half, ranks := rankMask g.rankw } } }
  | .amMap =>
    .fin .ok { s with
      ctl := { s.ctl with addrmap := addrmap (startOffset s.board g) g }
      ag := s.opGeom
      agValid := true
      amDone := true }
  | _ => .go s

/-- CFG_ADDRMAP (R140). -/
def execCfgAddrmap (s : State) : StepOutcome := runCommand .cfgAddrmap cfgAddrmapMicro s

/-- CFG_ODT's micro-steps (R150): the routing constant (R151), the timing value (R152), its three shadows (R155). -/
def cfgOdtMicro (s : State) : MicroOut :=
  match s.fsm with
  | .odtMap => goTo .odtTim { s with ctl := { s.ctl with odtmap := odtRouting (geomFields s.opGeom).half } }
  | .odtTim => goTo .odtSh0 { s with ctl := { s.ctl with odtcfg := odtTiming s.board.params } }
  | .odtSh0 => goTo .odtSh1 { s with ctl := { s.ctl with odtcfgSh0 := odtTiming s.board.params } }
  | .odtSh1 => goTo .odtSh2 { s with ctl := { s.ctl with odtcfgSh1 := odtTiming s.board.params } }
  | .odtSh2 =>
    .fin .ok { s with ctl := { s.ctl with odtcfgSh2 := odtTiming s.board.params }, odtDone := true }
  | _ => .go s

/-- CFG_ODT (R150). -/
def execCfgOdt (s : State) : StepOutcome := runCommand .cfgOdt cfgOdtMicro s

/-- CFG_TIMING's micro-step (R160). -/
def cfgTimingMicro (s : State) : MicroOut :=
  match s.fsm with
  | .timWrite =>
    .fin .ok { s with
      ctl := { s.ctl with timing :=
        { bank := Config.timing s.board.params.clk s.board.params.tech s.board.params.flags.timingFlags
          fixed := Config.timingFixed } }
      timDone := true }
  | _ => .go s

/-- CFG_TIMING (R160). -/
def execCfgTiming (s : State) : StepOutcome := runCommand .cfgTiming cfgTimingMicro s

/-- The controller words that hold the address map (R147). -/
def addrmapWords (s : State) : List (Nat × Word) := Config.addrmapEnc s.ctl.addrmap

end Sys2Proof.Machine
end

