-- ==== Sys2Proof/Machine/DfiInit.lean ====
section
/-! DEFINITION. DFI_INIT, the DFI handshake FSM with its mode-register writes (44_dfi_handshake.md, R210 to R225). -/

namespace Sys2Proof.Machine

/-- DFI_INIT's micro-steps (R210, R225). The write of INIT_CPL at 0x61 is the rising edge that clears INIT_DONE and
starts the PHY init engine (R212, R230, log 10). MR_BUSY reads 1 from the trigger on (R220). -/
def dfiInitMicro (s : State) : MicroOut :=
  match s.fsm with
  | .dfiArefOff => goTo .dfiInitSet { s with ctl := { s.ctl with arefEn := false } }
  | .dfiInitSet =>
    goTo .dfiInitClr { s with
      ctl := { s.ctl with initCpl := true }
      phy := { s.phy with initDone := false }
      phyStarted := true }
  | .dfiInitClr => goTo .dfiWaitPhy { s with ctl := { s.ctl with initCpl := false } }
  | .dfiWaitPhy => if s.phy.initDone then goTo .dfiSrExit s else .go s
  | .dfiSrExit => goTo .dfiWaitNormal { s with ctl := { s.ctl with srReq := false } }
  | .dfiWaitNormal =>
    if s.ctl.opmode = .normal then
      if (boardMrList s.board).isEmpty then goTo .dfiVendor { s with mrIdx := 0 }
      else goTo .dfiMrwSetup { s with mrIdx := 0 }
    else .go s
  | .dfiMrwSetup =>
    match (boardMrList s.board)[s.mrIdx]? with
    | some (i, v) =>
      goTo .dfiMrwTrig { s with ctl := { s.ctl with
        mrAddr := { mask := rankMask (geomFields s.ag).rankw, idx := i }, mrData := v } }
    | none => .go s
  | .dfiMrwTrig => goTo .dfiMrwPoll { s with ctl := { s.ctl with mrBusy := true } }
  | .dfiMrwPoll =>
    if s.ctl.mrBusy then .go s
    else if s.mrIdx + 1 < (boardMrList s.board).length then goTo .dfiMrwSetup { s with mrIdx := s.mrIdx + 1 }
    else goTo .dfiVendor { s with mrIdx := s.mrIdx + 1 }
  | .dfiVendor =>
    goTo .dfiArefOn (if s.board.params.tech = .lpddr4
      then { s with ctl := { s.ctl with vendorTim := Config.lp4VendorValue } } else s)
  | .dfiArefOn => .fin .ok { s with ctl := { s.ctl with arefEn := true }, stage := .dfiDone }
  | _ => .go s

/-- DFI_INIT (R210). -/
def execDfiInit (s : State) : StepOutcome := runCommand .dfiInit dfiInitMicro s

end Sys2Proof.Machine
end

