-- ==== Sys2Proof/Machine/PhyInit.lean ====
section
/-! DEFINITION. PHY_INIT, the PHY initializer (43_phy_init.md, R180 to R193). -/

namespace Sys2Proof.Machine

/-- PHY_INIT's micro-steps (R180). A step whose technology or tuning flag asks for no write is taken and writes nothing
(R189 to R192). -/
def phyInitMicro (s : State) : MicroOut :=
  let p := s.board.params
  match s.fsm with
  | .phyRstRel => goTo .phySyscfg { s with phy := { s.phy with rst := false } }
  | .phySyscfg => goTo .phyLat (regWrite s Config.sysCfgAddr Config.sysCfgValue)
  | .phyLat => goTo .phySdq { s with phy := { s.phy with lat := Config.latTable p.tech } }
  | .phySdq => goTo .phyDrive { s with phy := { s.phy with sdq := Config.sdqTable s.board.phyRouting } }
  | .phyDrive =>
    goTo .phyVref { s with phy := { s.phy with
      dxDrive := allLanes p.dxDrive, dxOdt := allLanes p.dxOdt, caDrive := p.caDrive, caOdt := p.caOdt } }
  | .phyVref => goTo .phyQuirks { s with phy := { s.phy with vref := allLanes (vrefOf p) } }
  | .phyQuirks =>
    goTo .phyLp4 { s with phy := { s.phy with
      dbiEn := dbiOf p.tech, odtOvr := odtOverrideOf p.tech, polarity := Config.polarity p.tech } }
  | .phyLp4 =>
    goTo .phyCadly (if p.tech = .lpddr4 then regWrite s Config.lp4PokeAddr Config.lp4PokeValue else s)
  | .phyCadly =>
    goTo .phyBdly0 (if p.flags.caDelayEn then { s with phy := { s.phy with caDelay := p.caDelay } } else s)
  | .phyBdly0 =>
    goTo .phyBdly1
      (if p.flags.bitdly0En then { s with phy := { s.phy with bitdly0 := bitDelayLanes p.bitdlyW0 } } else s)
  | .phyBdly1 =>
    let t := if p.flags.bitdly1En then { s with phy := { s.phy with bitdly1 := bitDelayLanes p.bitdlyW1 } } else s
    .fin .ok { t with stage := .phyReady }
  | _ => .go s

/-- PHY_INIT (R180). -/
def execPhyInit (s : State) : StepOutcome := runCommand .phyInit phyInitMicro s

end Sys2Proof.Machine
end

