-- ==== Sys2Proof/Machine/ReadCal.lean ====
section
/-! DEFINITION. RD_CAL, read calibration with bounded retry (45_read_calibration.md, R250 to R258). -/

namespace Sys2Proof.Machine

/-- Every lane of mask(AG) is complete (R252, R257). -/
def calComplete (s : State) : Bool :=
  let m := calMask s.board (geomFields s.ag).half
  (s.phy.calDone &&& m) == m

/-- The poll of 0x83 ends: completion or failure (R252). -/
def calPollEnds (s : State) : Bool := calComplete s || s.phy.calFail

/-- RD_CAL's micro-steps (R250). Completion wins over a failure flag seen in the same poll (R252, R319). -/
def rdCalMicro (s : State) : MicroOut :=
  let g := geomFields s.ag
  match s.fsm with
  | .calStart => goTo .calAttempt { s with att := 0 }
  | .calAttempt => goTo .calTrig { s with att := s.att + 1, pass := 0 }
  | .calTrig =>
    goTo .calPoll { s with phy := { s.phy with
      calRankSel := calTargets s.board.secondPass g.rankw s.pass, calDone := 0, calFail := false, calTrig := true } }
  | .calPoll => if calPollEnds s then goTo .calUntrig { s with passOk := calComplete s } else .go s
  | .calUntrig =>
    let t := { s with phy := { s.phy with calTrig := false } }
    if s.passOk then
      if s.pass = 0 ∧ secondPassRuns s.board.secondPass g.rankw then goTo .calTrig { t with pass := 1 }
      else goTo .calDerive t
    else if s.att < Config.calAttempts then goTo .calAttempt t
    else .fin .calFail { t with attempts := s.att, stage := .calFailed }
  | .calDerive =>
    let base := coarseBaseOf s.phy.calReadout
    .fin .ok { s with
      phy := { s.phy with coarseBase := base }
      calBase := base
      attempts := s.att
      stage := .operational }
  | _ => .go s

/-- RD_CAL (R250). -/
def execRdCal (s : State) : StepOutcome := runCommand .rdCal rdCalMicro s

end Sys2Proof.Machine
end

