-- ==== Sys2Proof/Machine/Bringup.lean ====
section
/-! DEFINITION. BRINGUP, the whole pipeline (46_bringup.md, R270 to R273). -/

namespace Sys2Proof.Machine

/-- The sub-commands of BRINGUP, in order (R270, R271). -/
def subCommands : List Instr := [.clkInit, .cfgAddrmap, .cfgOdt, .cfgTiming, .phyInit, .dfiInit, .rdCal]

/-- The micro-steps of a sub-command, as its own rule gives them (R270). -/
def subMicro (i : Instr) (s : State) : MicroOut :=
  match i with
  | .clkInit => clkInitMicro s
  | .cfgOdt => cfgOdtMicro s
  | .cfgAddrmap => cfgAddrmapMicro s
  | .cfgTiming => cfgTimingMicro s
  | .phyInit => phyInitMicro s
  | .dfiInit => dfiInitMicro s
  | .rdCal => rdCalMicro s
  | .bringup => .go s

/-- BRINGUP goes on to its sub-command number j: FSM holds its first micro-step (R270). -/
def startSub (j : Nat) (i : Instr) (s : State) : State :=
  { s with sub := j, fsm := firstMicro i }

/-- A sub-command of BRINGUP reads its operand inside the sub-command, at its first micro-step: GEOM at 0x20 for
CFG_ADDRMAP and at 0x28 for CFG_ODT, so that a GEOM written between the two gives a HALF mismatch (R355, log 9). -/
def readOperand (i : Instr) (s : State) : State :=
  { s with opGeom := if s.fsm = firstMicro i then latchedGeom i s else s.opGeom }

/-- BRINGUP's micro-steps (R270): those of the current sub-command, on the operand it reads; when it ends OK the
next one starts, and any other result ends BRINGUP with that result. -/
def bringupMicro (s : State) : MicroOut :=
  match subCommands[s.sub]? with
  | none => .go s
  | some i =>
    match subMicro i (readOperand i s) with
    | .go t => .go t
    | .fin r t =>
      match r with
      | .ok =>
        match subCommands[s.sub + 1]? with
        | some j => .go (startSub (s.sub + 1) j t)
        | none => .fin .ok t
      | _ => .fin r t

/-- BRINGUP (R270). -/
def execBringup (s : State) : StepOutcome := runCommand .bringup bringupMicro s

end Sys2Proof.Machine
end

