-- ==== Sys2Proof/Machine/Dispatch.lean ====
section
/-! DEFINITION. One arm per command (R101): each calls the command's own meaning. -/

namespace Sys2Proof.Machine

def exec (i : Instr) (s : State) : Host.Outcome State Fault Refusal :=
  match i with
  | .clkInit => Sys2Proof.Machine.execClkInit s
  | .cfgOdt => Sys2Proof.Machine.execCfgOdt s
  | .cfgAddrmap => Sys2Proof.Machine.execCfgAddrmap s
  | .cfgTiming => Sys2Proof.Machine.execCfgTiming s
  | .phyInit => Sys2Proof.Machine.execPhyInit s
  | .dfiInit => Sys2Proof.Machine.execDfiInit s
  | .rdCal => Sys2Proof.Machine.execRdCal s
  | .bringup => Sys2Proof.Machine.execBringup s

end Sys2Proof.Machine
end

