-- ==== Sys2Proof/Machine/Environment.lean ====
section
/-! DEFINITION. The environment agents' steps (R123, R230 to R232, R256). A move whose rule does not enable it leaves
the state as it is (log 20). Whether, when and with what outcome an agent moves is a draw (R318). -/

namespace Sys2Proof.Machine

/-- The PLL agent (R123): sets PLL.LOCK. It is enabled while LOCK reads 0 (log 12). -/
def pllStep (s : State) : State :=
  if s.pll.lock then s else { s with pll := { s.pll with lock := true } }

/-- The PHY init engine (R230). -/
def phyInitStep (s : State) : State :=
  if s.phyStarted ∧ s.phy.rst = false ∧ s.phy.initDone = false
  then { s with phy := { s.phy with initDone := true } }
  else s

/-- Whether the controller mode logic may move CTL.OPMODE to `m` (R231). -/
def opmodeEnabled (m : OpMode) (s : State) : Bool :=
  match s.ctl.opmode with
  | .normal => false
  | _ =>
    match m with
    | .init => true
    | .selfRefresh => true
    | .normal => !s.ctl.srReq && s.phy.initDone

/-- The controller mode logic (R231). -/
def opmodeStep (m : OpMode) (s : State) : State :=
  if opmodeEnabled m s then { s with ctl := { s.ctl with opmode := m } } else s

/-- Write a device mode register in every rank of the mask that the device has (R232). -/
def writeDeviceMr (d : DeviceGeometry) (a : MrAddr) (v : Word) (mr : DeviceMr) : DeviceMr :=
  { rank0 := if a.mask.getLsbD 0 ∧ 0 < d.ranks then mr.rank0.set a.idx v else mr.rank0
    rank1 := if a.mask.getLsbD 1 ∧ 1 < d.ranks then mr.rank1.set a.idx v else mr.rank1 }

/-- The MR engine (R232). -/
def mrEngineStep (s : State) : State :=
  if s.ctl.mrBusy then
    { s with
      devMr := writeDeviceMr s.board.dev s.ctl.mrAddr s.ctl.mrData s.devMr
      ctl := { s.ctl with mrBusy := false } }
  else s

/-- A readout of P_READOUT_W bits (R39, R256, log 26). -/
def clipReadouts (w : Nat) (r : Lanes Nat) : Lanes Nat :=
  ⟨r.lane0 % 2 ^ w, r.lane1 % 2 ^ w, r.lane2 % 2 ^ w, r.lane3 % 2 ^ w⟩

/-- The calibration engine (R256): further completion bits, possibly the failure flag, and any readouts. -/
def calEngineStep (bits : BitVec 4) (fail : Bool) (readouts : Lanes Nat) (s : State) : State :=
  if s.phy.calTrig ∧ calPollEnds s = false then
    { s with phy := { s.phy with
      calDone := s.phy.calDone ||| bits
      calFail := s.phy.calFail || fail
      calReadout := clipReadouts s.board.readoutW readouts } }
  else s

/-- One environment agent's step. -/
def envStep (m : EnvMove) (s : State) : State :=
  match m with
  | .pllLock => pllStep s
  | .phyInitDone => phyInitStep s
  | .opmode o => opmodeStep o s
  | .mrComplete => mrEngineStep s
  | .calRespond bits fail readouts => calEngineStep bits fail readouts s

end Sys2Proof.Machine
end

