-- ==== Sys2Proof/Machine/HostAgent.lean ====
section
/-! DEFINITION. The host agent: its accesses to the block window and to DRAM (R71 to R76, R311, R363), the lines of its
program (R109), and which agent takes the step. -/

namespace Sys2Proof.Machine

/-- A host write of a word to CMD (R100, R313): a legal word is the issue of its command, any other is ILLEGAL_CMD. -/
def writeCmd (w : Word) (s : State) : StepOutcome :=
  match decode w with
  | .ok i => exec i s
  | .error _ => .next (issueIllegal w s)

/-- Whether a block-window access is the naturally aligned 32-bit access R71 asks for. -/
def windowAccessOk (n : Nat) (off : BitVec 8) : Bool := n == 4 && off.toNat % 4 == 0

/-- A host write to the block window (R23 to R27, R71, R72). -/
def hostWrite (n : Nat) (off : BitVec 8) (w : Word) (s : State) : StepOutcome :=
  if windowAccessOk n off then
    if off = 0x00#8 then writeCmd w s
    else if off = 0x08#8 then .next { s with geom := w.extractLsb' 0 17 }
    else .next s
  else .fault .hostBadAccess

/-- The host goes on to its next line. -/
def nextLine (s : State) : State := { s with host := { s.host with pc := s.host.pc + 1 } }

/-- The host goes to a line. -/
def jumpTo (l : Nat) (s : State) : State := { s with host := { s.host with pc := l } }

/-- The host assigns a temporary. -/
def assignTemp (t v : Nat) (s : State) : State :=
  { s with host := { s.host with temps := setTemp s.host.temps t v } }

/-- Go on with the state an outcome answers, if it answers one. -/
def onNext (o : StepOutcome) (f : State → State) : StepOutcome :=
  match o with
  | .next s => .next (f s)
  | .fault r => .fault r
  | .refused r => .refused r

/-- One line of the host program (R109). A WR32 carries the low 32 bits of its value; for a value of 2^32 or more, where
the spec does not say what the access carries, that is the model's choice (DESIGN CHOICE, log 30). A POLL reads once, into temporary 0, and goes on when the masked value matches
(log 16); each of its reads is a move of its own. -/
def hostLine (l : HostLine) (s : State) : StepOutcome :=
  let eval := evalExpr s.host.temps
  match l with
  | .wr n off v => onNext (hostWrite n off (BitVec.ofNat 32 (eval v)) s) nextLine
  | .rd n off t =>
    if windowAccessOk n off then .next (nextLine (assignTemp t (readBlockReg s off).toNat s))
    else .fault .hostBadAccess
  | .poll off mask val =>
    if windowAccessOk 4 off then
      let r := (readBlockReg s off).toNat
      let s' := assignTemp 0 r s
      .next (if r &&& eval mask = eval val then nextLine s' else s')
    else .fault .hostBadAccess
  | .dw n a v =>
    match dramCheck s (eval a) n with
    | some f => .fault f
    | none => .next (nextLine (memWrite s (eval a) n (eval v)))
  | .dr n a t =>
    match dramCheck s (eval a) n with
    | some f => .fault f
    | none =>
      .next (nextLine (assignTemp t (memRead s (eval a) n) { s with draws := s.draws + n }))
  | .ifGoto c l => .next (if eval c = 0 then nextLine s else jumpTo l s)
  | .goto l => .next (jumpTo l s)
  | .assign t e => .next (nextLine (assignTemp t (eval e) s))
  | .ret e => .next { s with host := { s.host with ret := some (eval e) } }

/-- The host's step (R20(1)): its next line; nothing once it has returned or has no line left. -/
def hostStep (s : State) : StepOutcome :=
  match s.host.ret with
  | some _ => .next s
  | none =>
    match s.host.prog[s.host.pc]? with
    | some l => hostLine l s
    | none => .next s

/-- The sequencer's step (R20(2), R22): while a command runs, its meaning in the sequencer's hands; otherwise nothing.
A CUR_CMD that is no command is never latched by a running command, and holds (log 17). -/
def sequencerStep (s : State) : StepOutcome :=
  if s.busy then
    match instrOfOpcode s.curCmd with
    | some i => exec i s
    | none => .next s
  else .next s

/-- The step of the agent whose turn it is (R20, R363). -/
def takeTurn (s : State) : StepOutcome :=
  match s.turn with
  | .host => hostStep s
  | .sequencer => sequencerStep s
  | .env m => .next (envStep m s)
  | .blockReset => .next (blockReset s)

end Sys2Proof.Machine
end

