-- ==== Sys2Proof/Machine/Step.lean ====
section
/-! DEFINITION. One step of the machine: the agent whose turn it is moves, then the turn passes (R20, R363). And where
the next step finds a given command word: in the host's next line. -/

namespace Sys2Proof.Machine

/-- One step: one agent's move, then the turn passes (log 2). -/
def step (s : State) : Host.Outcome State Fault Refusal := onNext (takeTurn s) passTurn

/-- The state whose very next step issues the command word `w` (its low `nbits` bits): the host is to move, and its
program is the one line `WR32 0x00, w` (R23, R100, R110). The block fetches nothing (R84): a command arrives as a
register write. It stands for loading the host's program from outside (log 3). -/
def State.withFetchWord (s : State) (nbits w : Nat) : State :=
  { s with
    turn := .host
    host := { prog := [.wr 4 0x00 (.lit (w % 2 ^ nbits))], pc := 0, temps := s.host.temps, ret := none } }

end Sys2Proof.Machine
end

