-- ==== Sys2Proof/Machine/HostProcedures.lean ====
section
/-! DEFINITION. The host procedures (R5): the size calculator (R280), the pseudo-instructions (R110), the alias probe
(R282) and the detection engine (R284 to R292), as host programs that drive the block. -/

namespace Sys2Proof.Machine

/-! ## The size calculator (R280) -/

/-- Bytes per word: 4 for a full bus, 2 for a half one (R280). -/
def bytesPerWord (half : Nat) : Nat := if half = 1 then 2 else 4

/-- `size(g)` (R280), in bytes. -/
def sizeOfGeometry (g : Geometry) : Nat :=
  2 ^ (g.cols + g.rows + g.banks + g.bg) * bytesPerWord g.half * 2 ^ g.rankw

/-- The GEOM word of a geometry: `c | b<<4 | g<<8 | r<<10 | k<<15 | h<<16` (R110). -/
def packGeometry (g : Geometry) : Nat :=
  g.cols ||| g.banks <<< 4 ||| g.bg <<< 8 ||| g.rows <<< 10 ||| g.rankw <<< 15 ||| g.half <<< 16

/-! ## Temporaries, by number (log 16) -/

def tT : Nat := 0
def tSt : Nat := 1
def tAlias : Nat := 2
def tCols : Nat := 3
def tBanks : Nat := 4
def tBg : Nat := 5
def tRows : Nat := 6
def tRankw : Nat := 7
def tHalf : Nat := 8
def tCand : Nat := 9

/-! ## Expressions -/

def eAdd (a b : HostExpr) : HostExpr := .bin .add a b
def eShl (a b : HostExpr) : HostExpr := .bin .shl a b
def eOr (a b : HostExpr) : HostExpr := .bin .or a b

/-- `bw(hg)` (R283): 2 for a full bus, 1 for a half one. -/
def eBw : HostExpr := eAdd (.lit 1) (.bin .eq (.tmp tHalf) (.lit 0))

/-- The GEOM word of six field expressions (R110). -/
def eGeom (c b g r k h : HostExpr) : HostExpr :=
  eOr (eOr (eOr (eOr (eOr c (eShl b (.lit 4))) (eShl g (.lit 8))) (eShl r (.lit 10))) (eShl k (.lit 15)))
    (eShl h (.lit 16))

/-- `1 << e`: a probe offset (R282). -/
def eBit (e : HostExpr) : HostExpr := eShl (.lit 1) e

/-- `st[4:2] != OK`. -/
def eFailed : HostExpr := .bin .ne (.slice 4 2 (.tmp tSt)) (.lit 0)

/-! ## Pseudo-instructions (R110) -/

/-- `CMD m`. -/
def lineCmd (i : Instr) : HostLine := .wr 4 0x00 (.lit i.opcode.toNat)

/-- `WAITDONE`. -/
def lineWaitDone : HostLine := .poll 0x04 (.lit 1) (.lit 0)

/-- `RUN m`. -/
def runLines (i : Instr) : List HostLine := [lineCmd i, lineWaitDone, .rd 4 0x04 tSt]

/-- `SETGEOM c, b, g, r, k, h`. -/
def lineSetGeom (c b g r k h : HostExpr) : HostLine := .wr 4 0x08 (eGeom c b g r k h)

/-- `PROBE a -> alias` (R282). -/
def probeLines (a : HostExpr) : List HostLine :=
  [.dw 4 (.lit 0) (.lit Config.probeV0), .dw 4 a (.lit Config.probeV1), .dr 4 (.lit 0) tT,
   .assign tAlias (.bin .eq (.tmp tT) (.lit Config.probeV1))]

/-! ## The detection engine (R284 to R292). A block's first argument is the number of its first line. -/

/-- One hypothesis of the rank/width probe (R285), 8 lines. -/
def rankTry (base k h found : Nat) : List HostLine :=
  [lineSetGeom (.lit 9) (.lit 2) (.lit 0) (.lit 14) (.lit k) (.lit h)] ++ runLines .bringup ++
  [.ifGoto eFailed (base + 8), .assign tRankw (.lit k), .assign tHalf (.lit h), .goto found]

/-- `hg` at its start: (cols 9, banks 2, bg 0, rows 14, rankw 1, half 0) (R284), 6 lines from line 0. -/
def startGeometry : List HostLine :=
  [.assign tCols (.lit 9), .assign tBanks (.lit 2), .assign tBg (.lit 0), .assign tRows (.lit 14),
   .assign tRankw (.lit 1), .assign tHalf (.lit 0)]

/-- The rank/width probe (R285, R286), 33 lines from line 6. -/
def rankWidthProbe : List HostLine :=
  rankTry 6 1 0 39 ++ rankTry 14 1 1 39 ++ rankTry 22 0 0 39 ++ rankTry 30 0 1 39 ++ [.ret (.lit 0)]

/-- The bank-group probe of DDR4 (R287), 13 lines. -/
def bankGroupProbe (base fail : Nat) : List HostLine :=
  [lineSetGeom (.lit 9) (.lit 2) (.lit 2) (.lit 14) (.tmp tRankw) (.tmp tHalf)] ++ runLines .bringup ++
  [.ifGoto eFailed fail] ++ probeLines (eBit (eAdd eBw (.lit 4))) ++
  [.ifGoto (.tmp tAlias) (base + 12), .assign tBg (.lit 2), .goto (base + 13), .assign tBg (.lit 1)]

/-- A probe loop over the candidates lo to hi of a field, `top` when none aliases: the first candidate whose probe
aliases is taken (R289 to R291, conflict C1), 16 lines. `low` is the sum of the widths below the field. -/
def widthProbe (base fail : Nat) (geom : HostLine) (field lo hi top : Nat) (low : HostExpr) : List HostLine :=
  [geom] ++ runLines .bringup ++ [.ifGoto eFailed fail, .assign field (.lit top), .assign tCand (.lit lo)] ++
  probeLines (eBit (eAdd (.tmp tCand) low)) ++
  [.ifGoto (.tmp tAlias) (base + 15), .assign tCand (eAdd (.tmp tCand) (.lit 1)),
   .ifGoto (.bin .le (.tmp tCand) (.lit hi)) (base + 7), .goto (base + 16), .assign field (.tmp tCand)]

/-- The column probe (R289). -/
def columnProbe (base fail : Nat) : List HostLine :=
  widthProbe base fail (lineSetGeom (.lit 12) (.lit 2) (.tmp tBg) (.lit 14) (.tmp tRankw) (.tmp tHalf))
    tCols 8 11 12 (eAdd eBw (.tmp tBg))

/-- The bank probe (R290). -/
def bankProbe (base fail : Nat) : List HostLine :=
  widthProbe base fail (lineSetGeom (.tmp tCols) (.lit 3) (.tmp tBg) (.lit 14) (.tmp tRankw) (.tmp tHalf))
    tBanks 2 2 3 (eAdd (eAdd eBw (.tmp tBg)) (.tmp tCols))

/-- The row probe (R291). -/
def rowProbe (base fail : Nat) : List HostLine :=
  widthProbe base fail (lineSetGeom (.tmp tCols) (.tmp tBanks) (.tmp tBg) (.lit 18) (.tmp tRankw) (.tmp tHalf))
    tRows 14 17 18 (eAdd (eAdd (eAdd eBw (.tmp tBg)) (.tmp tCols)) (.tmp tBanks))

/-- `size(hg)` of the temporaries (R280). -/
def eSize : HostExpr :=
  eShl (.lit 1) (eAdd (eAdd (eAdd (eAdd (eAdd (.tmp tCols) (.tmp tRows)) (.tmp tBanks)) (.tmp tBg)) eBw) (.tmp tRankw))

/-- The final bring-up and the report (R292, R294), 7 lines: the last one is where every later failure goes. -/
def finalReport (fail : Nat) : List HostLine :=
  [lineSetGeom (.tmp tCols) (.tmp tBanks) (.tmp tBg) (.tmp tRows) (.tmp tRankw) (.tmp tHalf)] ++
  runLines .bringup ++ [.ifGoto eFailed fail, .ret eSize, .ret (.lit 0)]

/-- The detection engine after the bank-group stage, from line `base`. -/
def detectionRest (base : Nat) : List HostLine :=
  let fail := base + 54
  columnProbe base fail ++ bankProbe (base + 16) fail ++ rowProbe (base + 32) fail ++ finalReport fail

/-- The whole detection procedure for a technology (R284 to R292): DDR4 probes bank groups (R287), the other
technologies fix them at 0 (R288). -/
def detectionProgram (t : Tech) : List HostLine :=
  match t with
  | .ddr4 => startGeometry ++ rankWidthProbe ++ bankGroupProbe 39 (52 + 54) ++ detectionRest 52
  | .ddr3 => startGeometry ++ rankWidthProbe ++ [.assign tBg (.lit 0)] ++ detectionRest 40
  | .lpddr3 => startGeometry ++ rankWidthProbe ++ [.assign tBg (.lit 0)] ++ detectionRest 40
  | .lpddr4 => startGeometry ++ rankWidthProbe ++ [.assign tBg (.lit 0)] ++ detectionRest 40

end Sys2Proof.Machine
end

