-- ==== Sys2Proof/Safety.lean ====
section
/-! DEFINITION. What counts as a sound state of the machine, in the terms claims use: the invariants of the sequencer
and of the bring-up pipeline, the enabled positions of an address map, the measure of a read calibration, and running
an instruction's micro-steps in a row. -/

namespace Sys2Proof.Machine

/-- An instruction's meaning `n` times in a row. On the sequencer's turn: `n` micro-steps with no other agent's move
between them. -/
def repeatExec (i : Instr) (n : Nat) (s : State) : StepOutcome :=
  match n with
  | 0 => .next s
  | k + 1 =>
    match exec i s with
    | .next t => repeatExec i k t
    | .fault f => .fault f
    | .refused r => .refused r

/-- Micro-step `m` belongs to the command of `lo` and stands at or after it in that command's code order (R108). -/
def microFrom (lo m : Micro) : Bool :=
  microOwner m == microOwner lo && (microCode lo).toNat ≤ (microCode m).toNat

/-- The command whose micro-steps run: BRINGUP's current sub-command, or the latched command itself (R270). -/
def activeCommand (s : State) : Option Instr :=
  if s.curCmd = 0x08#8 then subCommands[s.sub]? else instrOfOpcode s.curCmd

/-- The stages after PHY_INIT (R30). -/
def Stage.phyUp (g : Stage) : Bool :=
  match g with
  | .reset => false
  | .clocked => false
  | .phyReady => true
  | .dfiDone => true
  | .operational => true
  | .calFailed => true

/-- The stages after DFI_INIT (R30). -/
def Stage.dfiUp (g : Stage) : Bool :=
  match g with
  | .reset => false
  | .clocked => false
  | .phyReady => false
  | .dfiDone => true
  | .operational => true
  | .calFailed => true

/-- What holds of the sequencer's own state between any two steps (R22, R28, R312, R314, R351). -/
structure SequencerInv (s : State) : Prop where
  /-- FSM is IDLE exactly when no command runs (R22). -/
  idle : s.busy = false ↔ s.fsm = .idle
  /-- While a command runs, DONE is 0 and RESULT reads 0 (R313, R351). -/
  running : s.busy = true → s.cmdDone = false ∧ s.result = .ok
  /-- FATAL is the mark of a CONFIG_INVALID that ended (R312). -/
  fatalEnd : s.fatal = true → s.busy = false ∧ s.cmdDone = true ∧ s.result = .configInvalid
  /-- FSM names a micro-step of the running command (R22, R108). -/
  owner : s.busy = true → microOwner s.fsm = activeCommand s
  /-- ATT and ATTEMPTS stay in 0 to 5 (R24, R28). -/
  attempts : s.att ≤ 5 ∧ s.attempts ≤ 5
  /-- An attempt begins only while one is left (R250). -/
  attemptLeft : s.fsm = .calAttempt → s.att < 5
  /-- A pass belongs to an attempt (R250). -/
  attemptBegun : microFrom .calTrig s.fsm = true → 1 ≤ s.att

/-- What holds of the whole bring-up between any two steps: the stage order is kept (R30, R106, R345), each poll has
been answered before what follows it (R353), and nothing is in flight where no command waits for it (R362). -/
structure PipelineInv (s : State) : Prop where
  seq : SequencerInv s
  /-- CLK_INIT runs in STAGE = RESET after its hold step (R120). -/
  clkStage : microFrom .ckSettleA s.fsm = true → s.stage = .reset
  /-- The configurator runs in STAGE = CLOCKED (R106). -/
  cfgStage : (microOwner s.fsm = some .cfgAddrmap ∨ microOwner s.fsm = some .cfgOdt
    ∨ microOwner s.fsm = some .cfgTiming) → s.stage = .clocked
  /-- PHY_INIT runs in STAGE = CLOCKED, after all three configurator commands (R106). -/
  phyStage : microOwner s.fsm = some .phyInit →
    s.stage = .clocked ∧ s.amDone = true ∧ s.odtDone = true ∧ s.timDone = true
  /-- DFI_INIT runs in STAGE = PHY_READY (R106). -/
  dfiStage : microOwner s.fsm = some .dfiInit → s.stage = .phyReady
  /-- RD_CAL runs in STAGE = DFI_DONE (R106). -/
  calStage : microOwner s.fsm = some .rdCal → s.stage = .dfiDone
  /-- BRINGUP has run CFG_ADDRMAP before CFG_ODT, and both before CFG_TIMING (R271). -/
  bringupOdt : s.busy = true → s.curCmd = 0x08#8 → s.sub = 2 → s.amDone = true
  bringupTiming : s.busy = true → s.curCmd = 0x08#8 → s.sub = 3 → s.amDone = true ∧ s.odtDone = true
  /-- A geometry that passed the check stays the operand until the map is written (R140). -/
  geometryChecked : microFrom .amMstr s.fsm = true → validGeometry (geomFields s.opGeom) = true
  /-- AM_DONE: AG holds a valid geometry and the map is its map (R26, R140). -/
  mapDone : s.amDone = true → s.stage ≠ .reset →
    s.agValid = true ∧ validGeometry (geomFields s.ag) = true
      ∧ s.ctl.addrmap = addrmap (startOffset s.board (geomFields s.ag)) (geomFields s.ag)
  /-- After PHY_INIT the configurator's three commands have completed (R106). -/
  configured : Stage.phyUp s.stage = true → s.amDone = true ∧ s.odtDone = true ∧ s.timDone = true
  /-- The PLL has locked before the module clock is enabled (R353), and the re-enable order is R121's. -/
  pllLocked : microFrom .ckModclk s.fsm = true → s.pll.lock = true
  modClk : microFrom .ckRstRel s.fsm = true → s.ccu.modClkEn = true
  rstReleased : microFrom .ckSettleB s.fsm = true → s.ccu.dramRst = false
  busGateOpen : microFrom .ckBridge s.fsm = true → s.ccu.busGate = true
  /-- Out of STAGE = RESET the DRAM domain is clocked (R120, R362). -/
  clocked : s.stage ≠ .reset → s.pll.lock = true
    ∧ s.ccu = { bridgeEn := true, busGate := true, modClkEn := true, dramRst := false }
  /-- The PHY is out of reset after PHY_INIT's first micro-step (R181). -/
  phyReleasing : microFrom .phySyscfg s.fsm = true → s.phy.rst = false
  phyReleased : Stage.phyUp s.stage = true → s.phy.rst = false
  /-- Refresh is off throughout the handshake and the mode-register writes (R211, R218). -/
  refreshOff : microFrom .dfiInitSet s.fsm = true → s.ctl.arefEn = false
  initCleared : microFrom .dfiWaitPhy s.fsm = true → s.ctl.initCpl = false
  /-- The PHY init engine is done before self-refresh exit (R353). -/
  phyInitDone : microFrom .dfiSrExit s.fsm = true → s.phy.initDone = true
  srExited : microFrom .dfiWaitNormal s.fsm = true → s.ctl.srReq = false
  /-- No mode-register write starts before NORMAL has been seen (R218, R353). -/
  normalSeen : microFrom .dfiMrwSetup s.fsm = true → s.ctl.opmode = .normal
  /-- MR_IDX points into the list while its entries are written (R221). -/
  mrIndex : (s.fsm = .dfiMrwSetup ∨ s.fsm = .dfiMrwTrig ∨ s.fsm = .dfiMrwPoll) →
    s.mrIdx < (boardMrList s.board).length
  /-- After DFI_INIT the handshake is complete and refresh is on (R219, R362). -/
  handshake : Stage.dfiUp s.stage = true → s.ctl.arefEn = true ∧ s.ctl.initCpl = false ∧ s.ctl.srReq = false
    ∧ s.ctl.opmode = .normal ∧ s.phy.initDone = true
  /-- No mode-register write is in flight but while DFI_INIT polls it (R220, R362). -/
  mrQuiet : (s.stage ≠ .reset ∨ microFrom .ckSettleA s.fsm = true) → s.fsm ≠ .dfiMrwPoll → s.ctl.mrBusy = false
  /-- The calibration trigger is up only inside a pass (R252, R362). -/
  calQuiet : (s.stage ≠ .reset ∨ microFrom .ckSettleA s.fsm = true) → s.fsm ≠ .calPoll → s.fsm ≠ .calUntrig →
    s.phy.calTrig = false
  calRaised : s.fsm = .calPoll → s.phy.calTrig = true
  /-- OPERATIONAL is the end of a read calibration (R250, R26). -/
  operational : s.stage = .operational → 1 ≤ s.attempts ∧ s.calBase = s.phy.coarseBase
  /-- CAL_FAILED is the end of one that used up its attempts (R255, R310). -/
  calFailed : s.stage = .calFailed → s.attempts = 5
  /-- DRAM holds nothing the host wrote outside OPERATIONAL (R75, R86). -/
  dramEmpty : s.stage ≠ .operational → s.dram = []

/-- The positions an address map enables, field after field in the order BG, COL, BANK, ROW, RANK (R142, R146). -/
def enabledPositions (m : AddrMap) : List Nat :=
  (m.bg.toList ++ m.col.toList ++ m.bank.toList ++ m.row.toList ++ [m.rank0]).filterMap id

/-- N: the number of word-address bits a geometry uses (R146). -/
def hifWidth (g : Geometry) : Nat := g.cols + g.bg + g.banks + g.rows + g.rankw

/-- How many micro-steps a read calibration can still take, waits not counted (R258): seven for an attempt with two
passes, and one to derive the base. -/
def calRank (s : State) : Nat :=
  let later := 7 * (5 - s.att) + 1
  match s.fsm with
  | .calStart => 37
  | .calAttempt => later
  | .calTrig => later + 6 - 3 * s.pass.val
  | .calPoll => later + 5 - 3 * s.pass.val
  | .calUntrig => later + 4 - 3 * s.pass.val
  | .calDerive => 1
  | _ => 0

/-- The attached device has every address bit, rank and lane the configuration uses (R78). -/
def deviceCovers (d : DeviceGeometry) (g : Geometry) : Prop :=
  g.cols ≤ d.cols ∧ g.banks ≤ d.banks ∧ g.bg ≤ d.bg ∧ g.rows ≤ d.rows ∧ g.rankw + 1 ≤ d.ranks
    ∧ (d.half = 1 → g.half = 1)

/-- The two writes of an alias probe at offset `a` (R282). -/
def probeWrites (s : State) (a : Nat) : State := memWrite (memWrite s 0 4 Config.probeV0) a 4 Config.probeV1

end Sys2Proof.Machine
end

