-- ==== Sys2Proof/WellFormed.lean ====
section
/-! DEFINITION. Static checks: what a command word, a host program and the parameter records must be for the spec to
speak of them (R7, R8, R41, R100 to R104, R109). No rule of the machine depends on them: an illegal command word has
its defined result (R102, R103). -/

namespace Sys2Proof

open Sys2Proof.Machine

/-- A command word is legal when RSV = 0 and OPC is one of 0x01 to 0x08 (R104). -/
def commandWordWellFormed (w : Word) : Bool :=
  w.extractLsb 31 8 == 0 && (1 ≤ (w.extractLsb 7 0).toNat && (w.extractLsb 7 0).toNat ≤ 8)

/-- Every command is well formed: a command word has no operand field that could hold a wrong value (R100). -/
def Instr.wellFormed (i : Instr) : Bool :=
  match i with
  | .clkInit => true
  | .cfgOdt => true
  | .cfgAddrmap => true
  | .cfgTiming => true
  | .phyInit => true
  | .dfiInit => true
  | .rdCal => true
  | .bringup => true

/-- A line's jump target is a line of the program, or the place after its last line (R109). -/
def HostLine.wellFormed (len : Nat) (l : HostLine) : Bool :=
  match l with
  | .ifGoto _ t => t ≤ len
  | .goto t => t ≤ len
  | _ => true

/-- Every label of a host program is one of its lines (R109). -/
def hostProgramWellFormed (prog : List HostLine) : Bool :=
  prog.all (HostLine.wellFormed prog.length)

/-- PARAMS.clk is a natural number below 2^32 (R8). -/
def Params.wellFormed (p : Params) : Bool :=
  p.clk < 2 ^ 32

/-- DEV has one or two ranks and a full or half bus (R41). -/
def DeviceGeometry.wellFormed (d : DeviceGeometry) : Bool :=
  (d.ranks == 1 || d.ranks == 2) && d.half ≤ 1

/-- The parameters of R7 lie where R7 says: P_READOUT_W at least 3, P_HALF_START_OFFSET 3 or its alternative 2, and
P_MR6_TE_BIT a bit of a 32-bit value. -/
def Board.wellFormed (b : Board) : Bool :=
  Params.wellFormed b.params && DeviceGeometry.wellFormed b.dev && 3 ≤ b.readoutW
    && (b.halfStartOffset == 3 || b.halfStartOffset == 2) && b.mr6TeBit < 32

end Sys2Proof
end

