-- ==== Sys2Proof/Certificates/Slice0/Obligations.lean ====
section
/-! DEFINITION. The statements about the machine, from the spec's rules. In all of them an instruction has two parts,
as log 4 says: on the host's turn `exec` is the command's issue (R313), on the sequencer's turn it is the micro-step FSM
names (R22). A conclusion `exec i s = .next { s with … }` says everything: what is not named is unchanged. -/

open Sys2Proof Sys2Proof.Machine

/-! ## Command words -/

/-- The eight command words of R101, written out, decode to their commands; so do none of six words of R102, R103. -/
def Obligations.CommandWordsDecode : Prop :=
  decode 0x00000001#32 = .ok .clkInit ∧ decode 0x00000002#32 = .ok .cfgOdt ∧ decode 0x00000003#32 = .ok .cfgAddrmap
    ∧ decode 0x00000004#32 = .ok .cfgTiming ∧ decode 0x00000005#32 = .ok .phyInit
    ∧ decode 0x00000006#32 = .ok .dfiInit ∧ decode 0x00000007#32 = .ok .rdCal ∧ decode 0x00000008#32 = .ok .bringup
    ∧ decode 0x00000000#32 = .error .reservedOpcode ∧ decode 0x00000009#32 = .error .reservedOpcode
    ∧ decode 0x000000FF#32 = .error .reservedOpcode ∧ decode 0x00000108#32 = .error .rsvNotZero
    ∧ decode 0x80000001#32 = .error .rsvNotZero ∧ decode 0xFFFFFFFF#32 = .error .rsvNotZero

/-- R104: the decoder is total, and a word decodes to a command exactly when RSV = 0 and OPC is one of 0x01 to 0x08;
then the command is the one whose word it is, and every other word is illegal. -/
def Obligations.DecodeIsExactlyEncode : Prop :=
  (∀ (w : Word) (i : Instr), decode w = .ok i ↔ w = encode i)
    ∧ (∀ w : Word, (∃ i, decode w = .ok i) ↔
        w.extractLsb' 8 24 = 0 ∧ 1 ≤ (w.extractLsb' 0 8).toNat ∧ (w.extractLsb' 0 8).toNat ≤ 8)
    ∧ (∀ w : Word, (∃ i, decode w = .ok i) ∨ ∃ e, decode w = .error e)
    ∧ (∀ w : Word, commandWordWellFormed w = true ↔ ∃ i, w = encode i)

/-! ## Acceptance (R106, R313) -/

/-- R313: a host write of a word to CMD, case by case, in its order. An accepted word latches what R313 names and
nothing else, but that CFG_ADDRMAP and CFG_ODT read their operand GEOM then (R140, R150, R355; that it is kept in a
latch is the model's reading, log 9) and that BRINGUP starts at its first sub-command, SUB = 0 (R270). -/
def Obligations.CmdWriteFollowsAcceptanceOrder : Prop :=
  ∀ (s : State) (w : Word), s.turn = .host →
    (s.fatal = true → writeCmd w s = .next s)
    ∧ (s.fatal = false → s.busy = true → writeCmd w s = .next { s with ovr := true })
    ∧ (s.fatal = false → s.busy = false →
        (w.extractLsb' 8 24 ≠ 0 ∨ (w.extractLsb' 0 8).toNat = 0 ∨ 8 < (w.extractLsb' 0 8).toNat) →
        writeCmd w s = .next { s with
          busy := false, cmdDone := true, result := .illegalCmd, curCmd := w.extractLsb' 0 8, fsm := .idle })
    ∧ (∀ i, s.fatal = false → s.busy = false → w = encode i → precondition i s = false →
        writeCmd w s = .next { s with
          busy := false, cmdDone := true, result := .seqError, curCmd := w.extractLsb' 0 8, fsm := .idle })
    ∧ (∀ i, s.fatal = false → s.busy = false → w = encode i → precondition i s = true →
        writeCmd w s = .next { s with
          busy := true, cmdDone := false, result := .ok, curCmd := w.extractLsb' 0 8, fsm := firstMicro i
          opGeom := if i = .cfgAddrmap ∨ i = .cfgOdt then s.geom else s.opGeom
          sub := if i = .bringup then 0 else s.sub })

/-- R106, R313, R314: each command is accepted exactly in its stage, with the done bits it needs; out of it, it ends at
once with SEQ_ERROR and changes nothing but the status fields and CUR_CMD. An accepted CFG_ADDRMAP or CFG_ODT has read
GEOM (R140, R150; the latch is the model's reading, log 9), an accepted BRINGUP is at SUB = 0 (R270), and the other
commands keep both. -/
def Obligations.CommandsRunExactlyInTheirStage : Prop :=
  ∀ s : State, s.turn = .host → s.fatal = false → s.busy = false →
    let rejected (opc : BitVec 8) : StepOutcome := .next { s with
      busy := false, cmdDone := true, result := .seqError, curCmd := opc, fsm := .idle }
    let accepted (opc : BitVec 8) (m : Micro) (operand : BitVec 17) (sub : Nat) : StepOutcome := .next { s with
      busy := true, cmdDone := false, result := .ok, curCmd := opc, fsm := m, opGeom := operand, sub := sub }
    exec .clkInit s = accepted 0x01 .ckHold s.opGeom s.sub
    ∧ exec .cfgOdt s = (if s.stage = .clocked then accepted 0x02 .odtMap s.geom s.sub else rejected 0x02)
    ∧ exec .cfgAddrmap s = (if s.stage = .clocked then accepted 0x03 .amValidate s.geom s.sub else rejected 0x03)
    ∧ exec .cfgTiming s = (if s.stage = .clocked then accepted 0x04 .timWrite s.opGeom s.sub else rejected 0x04)
    ∧ exec .phyInit s = (if s.stage = .clocked ∧ s.amDone = true ∧ s.odtDone = true ∧ s.timDone = true
        then accepted 0x05 .phyRstRel s.opGeom s.sub else rejected 0x05)
    ∧ exec .dfiInit s = (if s.stage = .phyReady then accepted 0x06 .dfiArefOff s.opGeom s.sub else rejected 0x06)
    ∧ exec .rdCal s = (if s.stage = .dfiDone then accepted 0x07 .calStart s.opGeom s.sub else rejected 0x07)
    ∧ exec .bringup s = accepted 0x08 .ckHold s.opGeom 0

/-! ## Steps -/

/-- A step runs the decoded instruction: when the host's next line writes to CMD, the step is the CMD write of that
word, illegal or not (R313), the host goes to its next line and the turn passes; for a word that decodes to `i` that
write is `exec i`. On the sequencer's turn the step is `exec` of the command CUR_CMD latched, and the turn passes. The
word is the value's low 32 bits, which for a value of 2^32 or more is the model's choice (log 30). -/
def Obligations.StepRunsDecodedInstruction : Prop :=
  (∀ (s : State) (e : HostExpr), s.turn = .host → s.host.ret = none →
      s.host.prog[s.host.pc]? = some (.wr 4 0x00 e) →
      step s = onNext (writeCmd (BitVec.ofNat 32 (evalExpr s.host.temps e)) s) (fun t => passTurn (nextLine t)))
    ∧ (∀ (s : State) (i : Instr) (e : HostExpr), s.turn = .host → s.host.ret = none →
      s.host.prog[s.host.pc]? = some (.wr 4 0x00 e) →
      decode (BitVec.ofNat 32 (evalExpr s.host.temps e)) = .ok i →
      step s = onNext (exec i s) (fun t => passTurn (nextLine t)))
    ∧ (∀ (s : State) (i : Instr), s.turn = .sequencer → s.busy = true → s.curCmd = i.opcode →
      step s = onNext (exec i s) passTurn)

/-- R363: no move is refused. A step never refuses, it faults on the host's turn only, and a meaning never faults. -/
def Obligations.NoMoveIsRefused : Prop :=
  (∀ (s : State) (r : Refusal), step s ≠ .refused r)
    ∧ (∀ s : State, s.turn ≠ .host → ∃ t, step s = .next t)
    ∧ (∀ (s : State) (i : Instr), ∃ t, exec i s = .next t)

/-! ## The block window (R23 to R27, R71, R72) -/

/-- R24: the fields of the STATUS word, and its reserved bits, with every code of RESULT (R310), of STAGE (R30) and of FSM
(R22, R108 and the command files' micro-steps) written out. -/
def Obligations.StatusWordFields : Prop :=
  ∀ s : State,
    let fsmCodes : List (Micro × BitVec 8) :=
      [(.idle, 0x00),
       (.ckHold, 0x10), (.ckSettleA, 0x11), (.ckPll, 0x12), (.ckLock, 0x13), (.ckModclk, 0x14), (.ckRstRel, 0x15),
       (.ckSettleB, 0x16), (.ckBusgate, 0x17), (.ckBridge, 0x18),
       (.amValidate, 0x20), (.amMstr, 0x21), (.amMap, 0x22),
       (.odtMap, 0x28), (.odtTim, 0x29), (.odtSh0, 0x2A), (.odtSh1, 0x2B), (.odtSh2, 0x2C),
       (.timWrite, 0x30),
       (.phyRstRel, 0x40), (.phySyscfg, 0x41), (.phyLat, 0x42), (.phySdq, 0x43), (.phyDrive, 0x44), (.phyVref, 0x45),
       (.phyQuirks, 0x46), (.phyLp4, 0x47), (.phyCadly, 0x48), (.phyBdly0, 0x49), (.phyBdly1, 0x4A),
       (.dfiArefOff, 0x60), (.dfiInitSet, 0x61), (.dfiInitClr, 0x62), (.dfiWaitPhy, 0x63), (.dfiSrExit, 0x64),
       (.dfiWaitNormal, 0x65), (.dfiMrwSetup, 0x66), (.dfiMrwTrig, 0x67), (.dfiMrwPoll, 0x68), (.dfiVendor, 0x69),
       (.dfiArefOn, 0x6A),
       (.calStart, 0x80), (.calAttempt, 0x81), (.calTrig, 0x82), (.calPoll, 0x83), (.calUntrig, 0x84),
       (.calDerive, 0x85)]
    (statusWord s).getLsbD 0 = s.busy ∧ (statusWord s).getLsbD 1 = s.cmdDone
    ∧ (s.result, (statusWord s).extractLsb' 2 3) ∈
        [(Result.ok, 0#3), (.calFail, 1), (.configInvalid, 2), (.illegalCmd, 3), (.seqError, 4)]
    ∧ (statusWord s).extractLsb' 5 3 = 0
    ∧ (statusWord s).getLsbD 8 = s.fatal ∧ (statusWord s).getLsbD 9 = s.ovr
    ∧ (s.stage, (statusWord s).extractLsb' 10 3) ∈
        [(Stage.reset, 0#3), (.clocked, 1), (.phyReady, 2), (.dfiDone, 3), (.operational, 4), (.calFailed, 5)]
    ∧ (statusWord s).getLsbD 13 = s.amDone ∧ (statusWord s).getLsbD 14 = s.odtDone
    ∧ (statusWord s).getLsbD 15 = s.timDone
    ∧ (s.fsm, (statusWord s).extractLsb' 16 8) ∈ fsmCodes
    ∧ (statusWord s).extractLsb' 24 4 = BitVec.ofNat 4 s.attempts ∧ (statusWord s).extractLsb' 28 4 = 0

/-- R23, R25, R26, R27, R71, R72: host reads and writes of the block window, as steps. A read changes nothing but the
host's temporary; a write to GEOM stores bits [16:0]; writes to STATUS, CAL_BASE, ACTIVE_GEOM and the reserved offsets
are ignored; an access that is not a naturally aligned 32-bit one faults. That a written value of 2^32 or more is taken
modulo 2^32 is the model's choice (log 30). -/
def Obligations.BlockWindowAccesses : Prop :=
  ∀ (s : State) (n : Nat) (off : BitVec 8) (e : HostExpr) (d : Nat), s.turn = .host → s.host.ret = none →
    (s.host.prog[s.host.pc]? = some (.rd n off d) →
      (n = 4 ∧ off.toNat % 4 = 0 → step s = .next (passTurn (nextLine (assignTemp d
        (if off = 0x04#8 then statusWord s
         else if off = 0x08#8 then 0#15 ++ s.geom
         else if off = 0x0C#8 then 0#29 ++ s.calBase
         else if off = 0x10#8 then BitVec.ofBool s.agValid ++ 0#14 ++ s.ag
         else 0#32).toNat s))))
      ∧ (¬(n = 4 ∧ off.toNat % 4 = 0) → step s = .fault .hostBadAccess))
    ∧ (s.host.prog[s.host.pc]? = some (.wr n off e) →
      (n = 4 → off = 0x08#8 → step s = .next (passTurn (nextLine
        { s with geom := BitVec.ofNat 17 (evalExpr s.host.temps e) })))
      ∧ (n = 4 → off.toNat % 4 = 0 → off ≠ 0x00#8 → off ≠ 0x08#8 → step s = .next (passTurn (nextLine s)))
      ∧ (¬(n = 4 ∧ off.toNat % 4 = 0) → step s = .fault .hostBadAccess))

/-- R25, R105, R110: a geometry whose fields fit their bits, packed as SETGEOM packs it, is read back field by field. -/
def Obligations.GeometryWordRoundTrip : Prop :=
  ∀ g : Geometry, g.cols < 16 → g.banks < 16 → g.bg < 4 → g.rows < 32 → g.rankw < 2 → g.half < 2 →
    packGeometry g < 2 ^ 17 ∧ geomFields (BitVec.ofNat 17 (packGeometry g)) = g

/-! ## Reset (R340, R341) -/

/-- R340: State.reset has the block's reset values (the environment's are the model's choice, log 5, and no part of
this statement). -/
def Obligations.ResetHasBlockResetValues : Prop :=
  statusWord State.reset = 0 ∧ geomWord State.reset = 0x00003829 ∧ calBaseWord State.reset = 0
    ∧ activeGeomWord State.reset = 0 ∧ readBlockReg State.reset 0x00 = 0 ∧ State.reset.fsm = .idle
    ∧ State.reset.stage = .reset ∧ State.reset.curCmd = 0 ∧ State.reset.mrIdx = 0 ∧ State.reset.pass = 0
    ∧ State.reset.att = 0 ∧ State.reset.passOk = false ∧ State.reset.sub = 0 ∧ State.reset.phyStarted = false
    ∧ geomFields State.reset.geom = { cols := 9, banks := 2, bg := 0, rows := 14, rankw := 0, half := 0 }

/-- R340, R341: a block reset abandons any command from any state: the block's state takes its reset values, and every
environment field takes a free value that says nothing of what it held (log 6). -/
def Obligations.BlockResetFromAnyState : Prop :=
  ∀ s : State, s.turn = .blockReset → ∃ t, step s = .next t
    ∧ statusWord t = 0 ∧ geomWord t = 0x00003829 ∧ calBaseWord t = 0 ∧ activeGeomWord t = 0
    ∧ t.fsm = .idle ∧ t.stage = .reset ∧ t.curCmd = 0 ∧ t.mrIdx = 0 ∧ t.pass = 0 ∧ t.att = 0 ∧ t.passOk = false
    ∧ t.sub = 0 ∧ t.phyStarted = false
    ∧ t.ccu = Config.anyCcu s.draws ∧ t.pll = Config.anyPll s.draws ∧ t.ctl = Config.anyCtl s.draws
    ∧ t.phy = Config.anyPhy s.draws ∧ t.devMr = Config.anyDevMr s.draws ∧ t.draws = s.draws + 1
    ∧ (∀ k, Memory.get t.dram k = none) ∧ t.host = s.host ∧ t.board = s.board ∧ t.regWrites = s.regWrites

/-- R312, R313, R341: nothing but a block reset clears FATAL or OVR. -/
def Obligations.OnlyBlockResetClearsStickyBits : Prop :=
  ∀ s t : State, s.turn ≠ .blockReset → step s = .next t →
    (s.fatal = true → t.fatal = true) ∧ (s.ovr = true → t.ovr = true)

/-- R312: while FATAL is set and no command runs, every step but a block reset leaves the whole STATUS word as it is, so
no command runs. -/
def Obligations.FatalFreezesStatus : Prop :=
  ∀ s t : State, s.fatal = true → s.busy = false → s.turn ≠ .blockReset → step s = .next t →
    statusWord t = statusWord s ∧ t.fatal = true ∧ t.busy = false

/-! ## CLK_INIT (R120 to R125) -/

/-- R120, R121, R124: CLK_INIT's micro-steps one by one. What domain_reset leaves unspecified is a free value (log 7);
a settling delay has no effect in the untimed model (R352, log 19). That STARTED, which R230 has CLK_INIT clear, is
cleared at the hold step is the model's reading (log 11). -/
def Obligations.ClkInitMicroSteps : Prop :=
  ∀ s : State, s.turn = .sequencer →
    (s.fsm = .ckHold → exec .clkInit s = .next { s with
      fsm := .ckSettleA
      stage := .reset
      ccu := { bridgeEn := false, busGate := false, modClkEn := false, dramRst := true }
      ctl := { Config.anyCtl s.draws with mrBusy := false, opmode := .init }
      phy := { Config.anyPhy s.draws with rst := true, initDone := false, calTrig := false }
      phyStarted := false, agValid := false, dram := [], devMr := Config.anyDevMr s.draws, draws := s.draws + 1 })
    ∧ (s.fsm = .ckSettleA → exec .clkInit s = .next { s with fsm := .ckPll })
    ∧ (s.fsm = .ckPll → exec .clkInit s = .next { s with
      fsm := .ckLock, pll := { freq := Config.pllFreq s.board.params.clk, lock := false } })
    ∧ (s.fsm = .ckLock → s.pll.lock = true → exec .clkInit s = .next { s with fsm := .ckModclk })
    ∧ (s.fsm = .ckModclk → exec .clkInit s = .next { s with
      fsm := .ckRstRel, ccu := { s.ccu with modClkEn := true } })
    ∧ (s.fsm = .ckRstRel → exec .clkInit s = .next { s with
      fsm := .ckSettleB, ccu := { s.ccu with dramRst := false } })
    ∧ (s.fsm = .ckSettleB → exec .clkInit s = .next { s with fsm := .ckBusgate })
    ∧ (s.fsm = .ckBusgate → exec .clkInit s = .next { s with
      fsm := .ckBridge, ccu := { s.ccu with busGate := true } })
    ∧ (s.fsm = .ckBridge → exec .clkInit s = .next { s with
      fsm := .idle, busy := false, cmdDone := true, result := .ok
      ccu := { s.ccu with bridgeEn := true }
      stage := .clocked, amDone := false, odtDone := false, timDone := false, agValid := false })

/-- R120: from the hold step CLK_INIT reaches its poll in three micro-steps with LOCK cleared, and once the PLL has
locked it ends OK in six more, with the domain clocked. That STARTED (R230) is already clear at the poll is the model's
reading (log 11). -/
def Obligations.ClkInitRunsToClocked : Prop :=
  (∀ s : State, s.turn = .sequencer → s.fsm = .ckHold → ∃ t, repeatExec .clkInit 3 s = .next t
    ∧ t.fsm = .ckLock ∧ t.stage = .reset ∧ t.pll = { freq := Config.pllFreq s.board.params.clk, lock := false }
    ∧ t.ctl.mrBusy = false ∧ t.ctl.opmode = .init ∧ t.phy.rst = true ∧ t.phy.initDone = false
    ∧ t.phy.calTrig = false ∧ t.phyStarted = false ∧ t.agValid = false ∧ t.dram = []
    ∧ t.geom = s.geom ∧ t.calBase = s.calBase ∧ t.fatal = s.fatal ∧ t.ovr = s.ovr ∧ t.attempts = s.attempts
    ∧ t.ag = s.ag ∧ t.busy = s.busy)
  ∧ (∀ s : State, s.turn = .sequencer → s.fsm = .ckLock → s.pll.lock = true →
    repeatExec .clkInit 6 s = .next { s with
      fsm := .idle, busy := false, cmdDone := true, result := .ok, stage := .clocked
      ccu := { bridgeEn := true, busGate := true, modClkEn := true, dramRst := false }
      amDone := false, odtDone := false, timDone := false, agValid := false })

/-! ## The controller configurator (R140 to R162) -/

/-- R141: which geometries are valid, and that a failing CFG_ADDRMAP writes no controller field: at its first micro-step
it ends CONFIG_INVALID (R140) with FATAL set (R312), whatever the technology. That the operand is what the acceptance
latched is the model's reading (log 9). -/
def Obligations.InvalidGeometryEndsConfigInvalid : Prop :=
  (∀ g : Geometry, validGeometry g = true ↔
    (8 ≤ g.cols ∧ g.cols ≤ 12 ∧ (g.banks = 2 ∨ g.banks = 3) ∧ (g.bg = 0 ∨ g.bg = 1 ∨ g.bg = 2)
      ∧ 14 ≤ g.rows ∧ g.rows ≤ 18 ∧ (g.rankw = 0 ∨ g.rankw = 1)))
  ∧ (∀ s : State, s.turn = .sequencer → s.fsm = .amValidate → validGeometry (geomFields s.opGeom) = false →
    exec .cfgAddrmap s = .next { s with
      fsm := .idle, busy := false, cmdDone := true, result := .configInvalid, fatal := true })

/-- R140, R145: on a valid geometry CFG_ADDRMAP takes three micro-steps, writes master mode and the map, latches AG and
ends OK. The operand is what the acceptance latched (log 9). -/
def Obligations.CfgAddrmapRunsToEnd : Prop :=
  ∀ s : State, s.turn = .sequencer → s.fsm = .amValidate → validGeometry (geomFields s.opGeom) = true →
    repeatExec .cfgAddrmap 3 s = .next { s with
      fsm := .idle, busy := false, cmdDone := true, result := .ok
      ctl := { s.ctl with
        mstr := { tech := s.board.params.tech, half := (geomFields s.opGeom).half,
                  ranks := if (geomFields s.opGeom).rankw = 1 then 0b11 else 0b01 }
        addrmap := addrmap (startOffset s.board (geomFields s.opGeom)) (geomFields s.opGeom) }
      ag := s.opGeom, agValid := true, amDone := true }

/-- R146: the enabled positions of a valid geometry's map, field after field in the order BG, COL, BANK, ROW, RANK, are
exactly 3, 4, …, N - 1; with HIF 0, 1, 2 they are 0 to N - 1, each once. Within a field exactly the bits below the width
are enabled, and BG0, BG1 are as (d) says. -/
def Obligations.AddressMapIsContiguous : Prop :=
  ∀ g : Geometry, validGeometry g = true →
    enabledPositions (addrmap 3 g) = List.range' 3 (hifWidth g - 3)
    ∧ (∀ j : Fin 2, ((addrmap 3 g).bg[j].isSome = true ↔ j.val < g.bg))
    ∧ (∀ c : Fin 9, ((addrmap 3 g).col[c].isSome = true ↔ c.val + 3 < g.cols))
    ∧ (∀ b : Fin 3, ((addrmap 3 g).bank[b].isSome = true ↔ b.val < g.banks))
    ∧ (∀ r : Fin 18, ((addrmap 3 g).row[r].isSome = true ↔ r.val < g.rows))
    ∧ ((addrmap 3 g).rank0.isSome = true ↔ g.rankw = 1)
    ∧ (g.bg = 2 → (addrmap 3 g).bg[0] = some 3 ∧ (addrmap 3 g).bg[1] = some 4)
    ∧ (g.bg = 1 → (addrmap 3 g).bg[0] = some 3 ∧ (addrmap 3 g).bg[1] = none)
    ∧ (g.bg = 0 → (addrmap 3 g).bg[0] = none ∧ (addrmap 3 g).bg[1] = none)

/-- R143: with P_HALF_START_OFFSET = 3 the map written is the same for both bus widths, and half width halves the
capacity; with the alternative 2 a half-width map puts its first enabled bit on HIF 2, where COL2 is. -/
def Obligations.BusWidthChangesShiftNotMap : Prop :=
  (∀ (b : Board) (g : Geometry), b.halfStartOffset = 3 →
    addrmap (startOffset b { g with half := 1 }) { g with half := 1 }
      = addrmap (startOffset b { g with half := 0 }) { g with half := 0 }
    ∧ capacity { g with half := 0 } = 2 * capacity { g with half := 1 })
  ∧ (∀ (b : Board) (g : Geometry), b.halfStartOffset = 2 → validGeometry g = true → g.half = 1 →
    (enabledPositions (addrmap (startOffset b g) g)).head? = some 2)

/-- R152, R153, R154: the ODT timing value CFG_ODT writes, by technology: the LPDDR3 sub-fields from the clock, the DDR4
high sub-field 7 or 6 by MR4 bit 12. -/
def Obligations.OdtTimingByTechnology : Prop :=
  ∀ s : State, s.turn = .sequencer → s.fsm = .odtTim →
    exec .cfgOdt s = .next { s with
      fsm := .odtSh0
      ctl := { s.ctl with odtcfg :=
        match s.board.params.tech with
        | .ddr3 => Config.odtTimDdr3
        | .lpddr4 => Config.odtTimLpddr4
        | .lpddr3 => Config.odtLp3Pack (s.board.params.clk * 7 / 2000) (if s.board.params.clk < 400 then 0x3 else 0x4)
        | .ddr4 => Config.odtDdr4Pack (if s.board.params.mr.mr4.getLsbD 12 then 7 else 6)
            (Config.odtDdr4Lo s.board.params.mr.mr4) } }

/-- R150, R151, R155: CFG_ODT's five micro-steps write the routing constant of the bus width latched at acceptance
(log 9), the timing value and its three shadows, and end OK. -/
def Obligations.CfgOdtRunsToEnd : Prop :=
  ∀ s : State, s.turn = .sequencer → s.fsm = .odtMap →
    repeatExec .cfgOdt 5 s = .next { s with
      fsm := .idle, busy := false, cmdDone := true, result := .ok, odtDone := true
      ctl := { s.ctl with
        odtmap := if s.opGeom.getLsbD 16 then Config.odtMapHalf else Config.odtMapFull
        odtcfg := odtTiming s.board.params
        odtcfgSh0 := odtTiming s.board.params
        odtcfgSh1 := odtTiming s.board.params
        odtcfgSh2 := odtTiming s.board.params } }

/-- R160, R161: CFG_TIMING's one micro-step writes the translator's values and the fixed ones, and ends OK. -/
def Obligations.CfgTimingWritesTheBank : Prop :=
  ∀ s : State, s.turn = .sequencer → s.fsm = .timWrite →
    exec .cfgTiming s = .next { s with
      fsm := .idle, busy := false, cmdDone := true, result := .ok, timDone := true
      ctl := { s.ctl with timing :=
        { bank := Config.timing s.board.params.clk s.board.params.tech s.board.params.flags.timingFlags
          fixed := Config.timingFixed } } }

/-! ## PHY_INIT (R180 to R193) -/

/-- R180 to R193: PHY_INIT's eleven micro-steps, every technology and every combination of tuning flags: what the PHY
holds, which literal writes are performed, and that STAGE ends at PHY_READY. What the literal writes do is not in the
spec: that they are kept in a list, newest first, and change nothing else is the model's choice (log 14). -/
def Obligations.PhyInitRunsToReady : Prop :=
  ∀ s : State, s.turn = .sequencer → s.fsm = .phyRstRel →
    let p := s.board.params
    let w0 := p.bitdlyW0
    let w1 := p.bitdlyW1
    let vref := p.vrefOverride.getD (Config.vrefDefault p.tech)
    repeatExec .phyInit 11 s = .next { s with
      fsm := .idle, busy := false, cmdDone := true, result := .ok, stage := .phyReady
      regWrites := (if p.tech = .lpddr4 then [(0x03102ea8, Config.lp4PokeValue)] else [])
        ++ [(Config.sysCfgAddr, Config.sysCfgValue)] ++ s.regWrites
      phy := { s.phy with
        rst := false
        lat := Config.latTable p.tech
        sdq := Config.sdqTable s.board.phyRouting
        dxDrive := ⟨p.dxDrive, p.dxDrive, p.dxDrive, p.dxDrive⟩
        dxOdt := ⟨p.dxOdt, p.dxOdt, p.dxOdt, p.dxOdt⟩
        caDrive := p.caDrive
        caOdt := p.caOdt
        vref := ⟨vref, vref, vref, vref⟩
        dbiEn := p.tech == .ddr4 || p.tech == .lpddr4
        odtOvr := if p.tech = .lpddr3 ∨ p.tech = .ddr4 then some (Config.odtOverride p.tech) else none
        polarity := Config.polarity p.tech
        caDelay := if p.flags.caDelayEn then p.caDelay else s.phy.caDelay
        bitdly0 := if p.flags.bitdly0En
          then ⟨w0.extractLsb' 0 6, w0.extractLsb' 6 6, w0.extractLsb' 12 6, w0.extractLsb' 18 6⟩ else s.phy.bitdly0
        bitdly1 := if p.flags.bitdly1En
          then ⟨w1.extractLsb' 0 6, w1.extractLsb' 6 6, w1.extractLsb' 12 6, w1.extractLsb' 18 6⟩
          else s.phy.bitdly1 } }

/-! ## DFI_INIT (R210 to R232) -/

/-- R225, R211 to R220, R223: the DFI handshake FSM, state by state: the write of each state, and its next state when
its condition holds. R230 has the rising edge of INIT_CPL at 0x61 clear INIT_DONE and set STARTED; that the write there
counts as that edge whatever INIT_CPL held is the model's reading (log 10). -/
def Obligations.DfiHandshakeTable : Prop :=
  ∀ s : State, s.turn = .sequencer →
    (s.fsm = .dfiArefOff → exec .dfiInit s = .next { s with
      fsm := .dfiInitSet, ctl := { s.ctl with arefEn := false } })
    ∧ (s.fsm = .dfiInitSet → exec .dfiInit s = .next { s with
      fsm := .dfiInitClr, ctl := { s.ctl with initCpl := true }, phy := { s.phy with initDone := false }
      phyStarted := true })
    ∧ (s.fsm = .dfiInitClr → exec .dfiInit s = .next { s with
      fsm := .dfiWaitPhy, ctl := { s.ctl with initCpl := false } })
    ∧ (s.fsm = .dfiWaitPhy → s.phy.initDone = true → exec .dfiInit s = .next { s with fsm := .dfiSrExit })
    ∧ (s.fsm = .dfiSrExit → exec .dfiInit s = .next { s with
      fsm := .dfiWaitNormal, ctl := { s.ctl with srReq := false } })
    ∧ (s.fsm = .dfiWaitNormal → s.ctl.opmode = .normal → exec .dfiInit s = .next { s with
      fsm := .dfiMrwSetup, mrIdx := 0 })
    ∧ (∀ i v, s.fsm = .dfiMrwSetup → (boardMrList s.board)[s.mrIdx]? = some (i, v) →
      exec .dfiInit s = .next { s with
        fsm := .dfiMrwTrig
        ctl := { s.ctl with
          mrAddr := { mask := if (geomFields s.ag).rankw = 1 then 0b11 else 0b01, idx := i }, mrData := v } })
    ∧ (s.fsm = .dfiMrwTrig → exec .dfiInit s = .next { s with
      fsm := .dfiMrwPoll, ctl := { s.ctl with mrBusy := true } })
    ∧ (s.fsm = .dfiMrwPoll → s.ctl.mrBusy = false → exec .dfiInit s = .next { s with
      fsm := if s.mrIdx + 1 < (boardMrList s.board).length then .dfiMrwSetup else .dfiVendor
      mrIdx := s.mrIdx + 1 })
    ∧ (s.fsm = .dfiVendor → exec .dfiInit s = .next { s with
      fsm := .dfiArefOn
      ctl := { s.ctl with
        vendorTim := if s.board.params.tech = .lpddr4 then Config.lp4VendorValue else s.ctl.vendorTim } })
    ∧ (s.fsm = .dfiArefOn → exec .dfiInit s = .next { s with
      fsm := .idle, busy := false, cmdDone := true, result := .ok, stage := .dfiDone
      ctl := { s.ctl with arefEn := true } })

/-- R221, R222: the mode-register list of each technology, with its length, for any training-enable bit; DDR4's two MR6
writes differ from the preset in that bit alone, set and then cleared. (P_MR6_TE_BIT = 7 is the board's value, log 23.) -/
def Obligations.MrListByTechnology : Prop :=
  ∀ (mr : MrPresets) (te : Nat), te < 32 →
    mrList .ddr3 mr te = [(0, mr.mr0), (1, mr.mr1), (2, mr.mr2), (3, mr.mr3)]
    ∧ (∃ on off, mrList .ddr4 mr te = [(0, mr.mr0), (1, mr.mr1), (2, mr.mr2), (3, mr.mr3), (4, mr.mr4), (5, mr.mr5),
          (6, on), (6, off)]
        ∧ on = mr.mr6 ||| BitVec.ofNat 32 (2 ^ te) ∧ off = mr.mr6 &&& ~~~BitVec.ofNat 32 (2 ^ te)
        ∧ ∀ k, k < 32 → on.getLsbD k = (mr.mr6.getLsbD k || k == te) ∧ off.getLsbD k = (mr.mr6.getLsbD k && k != te))
    ∧ mrList .lpddr3 mr te = [(1, mr.mr1), (2, mr.mr2), (3, mr.mr3), (11, mr.mr11)]
    ∧ mrList .lpddr4 mr te = [(0, mr.mr0), (1, mr.mr1), (2, mr.mr2), (3, mr.mr3), (4, mr.mr4), (11, mr.mr11),
        (12, mr.mr12), (13, mr.mr13), (14, mr.mr14)]
    ∧ (mrList .ddr3 mr te).length = 4 ∧ (mrList .ddr4 mr te).length = 8 ∧ (mrList .lpddr3 mr te).length = 4
    ∧ (mrList .lpddr4 mr te).length = 9

/-- R217, R220, R232: one mode-register write end to end: set up and trigger by the sequencer, the MR engine's step, the
poll. Each configured rank the device has then holds the value at the index, every other device mode register is as it
was, and MR_IDX has moved on by one. -/
def Obligations.ModeRegisterWriteReachesDevice : Prop :=
  ∀ (s : State) (i : MrIndex) (v : Word), s.turn = .sequencer → s.fsm = .dfiMrwSetup →
    (boardMrList s.board)[s.mrIdx]? = some (i, v) →
    ∃ t u w, repeatExec .dfiInit 2 s = .next t ∧ t.fsm = .dfiMrwPoll ∧ t.ctl.mrBusy = true
      ∧ u = mrEngineStep t ∧ exec .dfiInit u = .next w ∧ w.mrIdx = s.mrIdx + 1 ∧ w.ctl.mrBusy = false
      ∧ (∀ j : MrIndex, w.devMr.rank0[j] = if j = i ∧ 0 < s.board.dev.ranks then v else s.devMr.rank0[j])
      ∧ (∀ j : MrIndex, w.devMr.rank1[j] =
          if j = i ∧ 1 < s.board.dev.ranks ∧ (geomFields s.ag).rankw = 1 then v else s.devMr.rank1[j])

/-! ## RD_CAL (R250 to R258) -/

/-- R250, R252, R254, R255, R257: RD_CAL's micro-steps, case by case: targets and cleared status at the trigger,
completion winning over failure at the poll, second pass, retry, the end after the last attempt, and the base. -/
def Obligations.RdCalMicroSteps : Prop :=
  ∀ s : State, s.turn = .sequencer →
    let g := geomFields s.ag
    let m := if g.half = 1 then s.board.calMaskHalf else s.board.calMaskFull
    let second := match s.board.secondPass with
      | .rankw0 => g.rankw = 0
      | .rankw1 => g.rankw = 1
    (s.fsm = .calStart → exec .rdCal s = .next { s with fsm := .calAttempt, att := 0 })
    ∧ (s.fsm = .calAttempt → exec .rdCal s = .next { s with fsm := .calTrig, att := s.att + 1, pass := 0 })
    ∧ (s.fsm = .calTrig → exec .rdCal s = .next { s with
      fsm := .calPoll
      phy := { s.phy with
        calRankSel := match s.board.secondPass with
          | .rankw0 => if s.pass = 1 then 0b10 else if g.rankw = 1 then 0b11 else 0b01
          | .rankw1 => if s.pass = 1 then 0b10 else 0b01
        calDone := 0, calFail := false, calTrig := true } })
    ∧ (s.fsm = .calPoll → s.phy.calDone &&& m = m → exec .rdCal s = .next { s with
      fsm := .calUntrig, passOk := true })
    ∧ (s.fsm = .calPoll → s.phy.calDone &&& m ≠ m → s.phy.calFail = true → exec .rdCal s = .next { s with
      fsm := .calUntrig, passOk := false })
    ∧ (s.fsm = .calUntrig → s.passOk = true → s.pass = 0 → second → exec .rdCal s = .next { s with
      fsm := .calTrig, pass := 1, phy := { s.phy with calTrig := false } })
    ∧ (s.fsm = .calUntrig → s.passOk = true → ¬(s.pass = 0 ∧ second) → exec .rdCal s = .next { s with
      fsm := .calDerive, phy := { s.phy with calTrig := false } })
    ∧ (s.fsm = .calUntrig → s.passOk = false → s.att < 5 → exec .rdCal s = .next { s with
      fsm := .calAttempt, phy := { s.phy with calTrig := false } })
    ∧ (s.fsm = .calUntrig → s.passOk = false → 5 ≤ s.att → exec .rdCal s = .next { s with
      fsm := .idle, busy := false, cmdDone := true, result := .calFail, stage := .calFailed, attempts := s.att
      phy := { s.phy with calTrig := false } })

/-- R253: the base is the largest readout clamped to 7, plus 2, modulo 8; RD_CAL writes it to PHY.COARSE_BASE and
CAL_BASE and ends OK with STAGE = OPERATIONAL. -/
def Obligations.RdCalDerivesCoarseBase : Prop :=
  ∀ (s : State) (v : Nat), s.turn = .sequencer → s.fsm = .calDerive →
    (v = s.phy.calReadout.lane0 ∨ v = s.phy.calReadout.lane1 ∨ v = s.phy.calReadout.lane2
      ∨ v = s.phy.calReadout.lane3) →
    s.phy.calReadout.lane0 ≤ v → s.phy.calReadout.lane1 ≤ v → s.phy.calReadout.lane2 ≤ v →
    s.phy.calReadout.lane3 ≤ v →
    ∃ base : BitVec 3, base.toNat = (min v 7 + 2) % 8 ∧ exec .rdCal s = .next { s with
      fsm := .idle, busy := false, cmdDone := true, result := .ok, stage := .operational, attempts := s.att
      calBase := base, phy := { s.phy with coarseBase := base } }

/-- R258: a read calibration cannot go on for ever. In a state that meets the invariant the bound is at most 37; each of
its micro-steps that is not a poll still waiting either ends the command or lowers the bound; and no other agent's move,
but a block reset, changes the bound or moves FSM. -/
def Obligations.RdCalEndsWithinBound : Prop :=
  (∀ s : State, PipelineInv s → calRank s ≤ 37)
  ∧ (∀ s t : State, PipelineInv s → s.turn = .sequencer → microOwner s.fsm = some .rdCal →
      (s.fsm = .calPoll → calPollEnds s = true) → exec .rdCal s = .next t →
      (t.busy = false ∧ t.fsm = .idle ∧ (t.result = .ok ∨ t.result = .calFail ∧ t.attempts = 5))
        ∨ (microOwner t.fsm = some .rdCal ∧ calRank t < calRank s))
  ∧ (∀ s t : State, s.turn ≠ .sequencer → s.turn ≠ .blockReset → s.busy = true → step s = .next t →
      t.fsm = s.fsm ∧ calRank t = calRank s)

/-! ## BRINGUP (R270 to R273) -/

/-- R270, R272: in its sub-command, BRINGUP takes the very step that sub-command takes by itself; when the sub-command
ends OK and another follows, BRINGUP goes on with that one and stays BUSY; the last OK, and any other result, end
BRINGUP. CFG_ADDRMAP and CFG_ODT read GEOM inside the sub-command (R355); that they do so at the first micro-step is the
model's reading (log 9). -/
def Obligations.BringupRunsItsSubCommands : Prop :=
  ∀ (s : State) (i : Instr), s.turn = .sequencer →
    [Instr.clkInit, .cfgAddrmap, .cfgOdt, .cfgTiming, .phyInit, .dfiInit, .rdCal][s.sub]? = some i →
    microOwner s.fsm = some i →
    let r := { s with opGeom := if s.fsm = .amValidate ∨ s.fsm = .odtMap then s.geom else s.opGeom }
    ∃ t, exec i r = .next t
      ∧ (t.fsm ≠ .idle ∨ t.result ≠ .ok ∨ s.sub = 6 → exec .bringup s = .next t)
      ∧ (∀ k, t.fsm = .idle → t.result = .ok →
          [Instr.clkInit, .cfgAddrmap, .cfgOdt, .cfgTiming, .phyInit, .dfiInit, .rdCal][s.sub + 1]? = some k →
          exec .bringup s = .next { t with
            busy := s.busy, cmdDone := s.cmdDone, result := s.result, sub := s.sub + 1, fsm := firstMicro k })

/-- R270, R310: the ends of BRINGUP: OK and OPERATIONAL when the calibration derives its base, CONFIG_INVALID at an
invalid geometry, CAL_FAIL when the attempts are used up. The geometry is the one in GEOM then (R355; the micro-step
is the model's reading, log 9). -/
def Obligations.BringupEnds : Prop :=
  ∀ s : State, s.turn = .sequencer →
    (s.sub = 6 → s.fsm = .calDerive → ∃ t, exec .bringup s = .next t ∧ t.busy = false ∧ t.cmdDone = true
      ∧ t.result = .ok ∧ t.fsm = .idle ∧ t.stage = .operational ∧ t.attempts = s.att
      ∧ t.calBase = t.phy.coarseBase ∧ t.ctl = s.ctl ∧ t.ag = s.ag ∧ t.agValid = s.agValid ∧ t.dram = s.dram)
    ∧ (s.sub = 1 → s.fsm = .amValidate → validGeometry (geomFields s.geom) = false →
      exec .bringup s = .next { s with
        fsm := .idle, busy := false, cmdDone := true, result := .configInvalid, fatal := true, opGeom := s.geom })
    ∧ (s.sub = 6 → s.fsm = .calUntrig → s.passOk = false → 5 ≤ s.att → ∃ t, exec .bringup s = .next t
      ∧ t.busy = false ∧ t.cmdDone = true ∧ t.result = .calFail ∧ t.fsm = .idle ∧ t.stage = .calFailed
      ∧ t.attempts = s.att ∧ t.calBase = s.calBase ∧ t.phy.coarseBase = s.phy.coarseBase)

/-! ## Polls and the environment (R123, R230 to R232, R256, R317) -/

/-- R317: a poll whose bit is not set leaves the whole state as it is: no timeout, no result. -/
def Obligations.UnansweredPollHolds : Prop :=
  ∀ s : State, s.turn = .sequencer →
    (s.fsm = .ckLock → s.pll.lock = false → exec .clkInit s = .next s)
    ∧ (s.fsm = .dfiWaitPhy → s.phy.initDone = false → exec .dfiInit s = .next s)
    ∧ (s.fsm = .dfiWaitNormal → s.ctl.opmode ≠ .normal → exec .dfiInit s = .next s)
    ∧ (s.fsm = .dfiMrwPoll → s.ctl.mrBusy = true → exec .dfiInit s = .next s)
    ∧ (s.fsm = .calPoll → calComplete s = false → s.phy.calFail = false → exec .rdCal s = .next s)

/-- R230: the PHY init engine's one step, and that it takes none where its rule does not enable it. -/
def Obligations.PhyInitEngineStep : Prop :=
  ∀ s : State, s.turn = .env .phyInitDone →
    (s.phyStarted = true → s.phy.rst = false → s.phy.initDone = false →
      step s = .next (passTurn { s with phy := { s.phy with initDone := true } }))
    ∧ (¬(s.phyStarted = true ∧ s.phy.rst = false ∧ s.phy.initDone = false) → step s = .next (passTurn s))

/-- R231: the controller mode logic: it wanders between INIT and SELF_REFRESH until NORMAL, reaches NORMAL only once
SR_REQ = 0 and INIT_DONE = 1, and never leaves it. -/
def Obligations.ControllerModeLogic : Prop :=
  ∀ (s : State) (m : OpMode), s.turn = .env (.opmode m) →
    (s.ctl.opmode ≠ .normal → (m ≠ .normal ∨ s.ctl.srReq = false ∧ s.phy.initDone = true) →
      step s = .next (passTurn { s with ctl := { s.ctl with opmode := m } }))
    ∧ (s.ctl.opmode ≠ .normal → m = .normal → ¬(s.ctl.srReq = false ∧ s.phy.initDone = true) →
      step s = .next (passTurn s))
    ∧ (s.ctl.opmode = .normal → step s = .next (passTurn s))

/-- R256: the calibration engine's step: completion bits only grow, the failure flag may rise, the readouts are any
values of P_READOUT_W bits; it takes none without the trigger or after the poll has ended. -/
def Obligations.CalibrationEngineStep : Prop :=
  ∀ (s : State) (bits : BitVec 4) (fail : Bool) (r : Lanes Nat), s.turn = .env (.calRespond bits fail r) →
    (s.phy.calTrig = true → calPollEnds s = false → ∃ t, step s = .next t
      ∧ t.phy.calDone = s.phy.calDone ||| bits ∧ t.phy.calFail = fail
      ∧ t.phy.calReadout.lane0 = r.lane0 % 2 ^ s.board.readoutW
      ∧ t.phy.calReadout.lane1 = r.lane1 % 2 ^ s.board.readoutW
      ∧ t.phy.calReadout.lane2 = r.lane2 % 2 ^ s.board.readoutW
      ∧ t.phy.calReadout.lane3 = r.lane3 % 2 ^ s.board.readoutW
      ∧ t = passTurn { s with phy := { s.phy with
          calDone := t.phy.calDone, calFail := t.phy.calFail, calReadout := t.phy.calReadout } })
    ∧ (¬(s.phy.calTrig = true ∧ calPollEnds s = false) → step s = .next (passTurn s))

/-- R123, R232: the PLL agent sets LOCK and nothing else; the MR engine clears MR_BUSY and writes device mode registers
and nothing else, and only while MR_BUSY = 1. That the PLL agent may move whenever LOCK is 0, also before the first
micro-step 0x12, is the model's reading of R123 (log 12); that a move which its rule does not enable (LOCK already 1,
MR_BUSY = 0) changes nothing but the turn is the model's choice (log 20). -/
def Obligations.PllAndMrEngineSteps : Prop :=
  (∀ s : State, s.turn = .env .pllLock →
    step s = .next (passTurn { s with pll := { s.pll with lock := true } }))
  ∧ (∀ s : State, s.turn = .env .mrComplete →
    (s.ctl.mrBusy = false → step s = .next (passTurn s))
    ∧ (s.ctl.mrBusy = true → ∃ t, step s = .next t ∧ t = passTurn { s with
        ctl := { s.ctl with mrBusy := false }, devMr := t.devMr }
      ∧ (∀ j : MrIndex, t.devMr.rank0[j] =
          if j = s.ctl.mrAddr.idx ∧ s.ctl.mrAddr.mask.getLsbD 0 = true ∧ 0 < s.board.dev.ranks then s.ctl.mrData
          else s.devMr.rank0[j])
      ∧ (∀ j : MrIndex, t.devMr.rank1[j] =
          if j = s.ctl.mrAddr.idx ∧ s.ctl.mrAddr.mask.getLsbD 1 = true ∧ 1 < s.board.dev.ranks then s.ctl.mrData
          else s.devMr.rank1[j])))

/-! ## Frames -/

/-- What CFG_ADDRMAP, CFG_ODT and CFG_TIMING leave unchanged, in either agent's hands: everything but the fields named,
among them every byte of memory (cell by cell, and for CFG_ODT and CFG_TIMING offset by offset too). -/
def Obligations.ConfiguratorFrame : Prop :=
  (∀ s t : State, exec .cfgAddrmap s = .next t →
    (t = { s with
      ctl := { s.ctl with mstr := t.ctl.mstr, addrmap := t.ctl.addrmap }
      ag := t.ag, agValid := t.agValid, amDone := t.amDone, fatal := t.fatal, ovr := t.ovr, busy := t.busy
      cmdDone := t.cmdDone, result := t.result, fsm := t.fsm, curCmd := t.curCmd, opGeom := t.opGeom })
    ∧ (∀ k, Memory.get t.dram k = Memory.get s.dram k))
  ∧ (∀ s t : State, exec .cfgOdt s = .next t →
    (t = { s with
      ctl := { s.ctl with
        odtmap := t.ctl.odtmap, odtcfg := t.ctl.odtcfg, odtcfgSh0 := t.ctl.odtcfgSh0
        odtcfgSh1 := t.ctl.odtcfgSh1, odtcfgSh2 := t.ctl.odtcfgSh2 }
      odtDone := t.odtDone, ovr := t.ovr, busy := t.busy, cmdDone := t.cmdDone, result := t.result, fsm := t.fsm
      curCmd := t.curCmd, opGeom := t.opGeom })
    ∧ (∀ k, Memory.get t.dram k = Memory.get s.dram k) ∧ (∀ a, dramStored t a = dramStored s a))
  ∧ (∀ s t : State, exec .cfgTiming s = .next t →
    (t = { s with
      ctl := { s.ctl with timing := t.ctl.timing }
      timDone := t.timDone, ovr := t.ovr, busy := t.busy, cmdDone := t.cmdDone, result := t.result, fsm := t.fsm
      curCmd := t.curCmd })
    ∧ (∀ k, Memory.get t.dram k = Memory.get s.dram k) ∧ (∀ a, dramStored t a = dramStored s a))

/-- What PHY_INIT, DFI_INIT and RD_CAL leave unchanged, in either agent's hands: everything but the fields named, among
them every byte of memory, at every offset and in every cell, and every device mode register. -/
def Obligations.PhyDfiCalFrame : Prop :=
  (∀ s t : State, exec .phyInit s = .next t →
    (t = { s with
      phy := { t.phy with
        initDone := s.phy.initDone, calRankSel := s.phy.calRankSel, calTrig := s.phy.calTrig
        calDone := s.phy.calDone, calFail := s.phy.calFail, calReadout := s.phy.calReadout
        coarseBase := s.phy.coarseBase }
      regWrites := t.regWrites, stage := t.stage, ovr := t.ovr, busy := t.busy, cmdDone := t.cmdDone
      result := t.result, fsm := t.fsm, curCmd := t.curCmd })
    ∧ (∀ k, Memory.get t.dram k = Memory.get s.dram k) ∧ (∀ a, dramStored t a = dramStored s a))
  ∧ (∀ s t : State, exec .dfiInit s = .next t →
    (t = { s with
      ctl := { s.ctl with
        arefEn := t.ctl.arefEn, initCpl := t.ctl.initCpl, srReq := t.ctl.srReq, mrAddr := t.ctl.mrAddr
        mrData := t.ctl.mrData, mrBusy := t.ctl.mrBusy, vendorTim := t.ctl.vendorTim }
      phy := { s.phy with initDone := t.phy.initDone }
      phyStarted := t.phyStarted, mrIdx := t.mrIdx, stage := t.stage, ovr := t.ovr, busy := t.busy
      cmdDone := t.cmdDone, result := t.result, fsm := t.fsm, curCmd := t.curCmd })
    ∧ (∀ k, Memory.get t.dram k = Memory.get s.dram k) ∧ (∀ a, dramStored t a = dramStored s a))
  ∧ (∀ s t : State, exec .rdCal s = .next t →
    (t = { s with
      phy := { s.phy with
        calRankSel := t.phy.calRankSel, calTrig := t.phy.calTrig, calDone := t.phy.calDone
        calFail := t.phy.calFail, coarseBase := t.phy.coarseBase }
      calBase := t.calBase, att := t.att, pass := t.pass, passOk := t.passOk, attempts := t.attempts
      stage := t.stage, ovr := t.ovr, busy := t.busy, cmdDone := t.cmdDone, result := t.result, fsm := t.fsm
      curCmd := t.curCmd })
    ∧ (∀ k, Memory.get t.dram k = Memory.get s.dram k) ∧ (∀ a, dramStored t a = dramStored s a))

/-- R343 and the frame of CLK_INIT and BRINGUP, in either agent's hands: they keep GEOM, the host, the board and the
turns; CLK_INIT keeps CAL_BASE, FATAL and ATTEMPTS too; and every byte of memory stays, but at the hold step, where
every byte is forgotten (R86). -/
def Obligations.DomainResetFrame : Prop :=
  (∀ s t : State, exec .clkInit s = .next t →
    (t = { s with
      ccu := t.ccu, pll := t.pll, ctl := t.ctl, phy := t.phy, dram := t.dram, devMr := t.devMr
      phyStarted := t.phyStarted, agValid := t.agValid, draws := t.draws, stage := t.stage, amDone := t.amDone
      odtDone := t.odtDone, timDone := t.timDone, ovr := t.ovr, busy := t.busy, cmdDone := t.cmdDone
      result := t.result, fsm := t.fsm, curCmd := t.curCmd })
    ∧ (¬(s.turn = .sequencer ∧ s.fsm = .ckHold) →
        t.ctl = s.ctl ∧ t.phy = s.phy ∧ t.devMr = s.devMr ∧ (∀ k, Memory.get t.dram k = Memory.get s.dram k)
        ∧ (∀ a, dramStored t a = dramStored s a))
    ∧ (s.turn = .sequencer → s.fsm = .ckHold → ∀ k, Memory.get t.dram k = none))
  ∧ (∀ s t : State, exec .bringup s = .next t →
    t.geom = s.geom ∧ t.host = s.host ∧ t.board = s.board ∧ t.turn = s.turn ∧ t.sched = s.sched
    ∧ t.tick = s.tick
    ∧ (¬(s.turn = .sequencer ∧ s.fsm = .ckHold) →
        t.devMr = s.devMr ∧ t.draws = s.draws ∧ (∀ k, Memory.get t.dram k = Memory.get s.dram k))
    ∧ (s.turn = .sequencer → s.sub = 0 → s.fsm = .ckHold → ∀ k, Memory.get t.dram k = none))

/-- R29: a host write to GEOM after the latch changes nothing of a running CLK_INIT, CFG_TIMING, PHY_INIT, DFI_INIT or
RD_CAL, nor, its operand being latched at acceptance (log 9), of a running CFG_ADDRMAP or CFG_ODT. -/
def Obligations.RunningCommandIgnoresGeom : Prop :=
  ∀ (i : Instr) (s t : State) (x : BitVec 17), i ≠ .bringup → s.turn = .sequencer → exec i s = .next t →
    exec i { s with geom := x } = .next { t with geom := x }

/-! ## The data path (R73 to R79, R280 to R283) -/

/-- R74, R75, R76, R311: a DRAM access by the host: the faults in their order of priority, and what an admitted access
does; each of its outcomes as a step. That a read moves the draw counter on by its width is the model's choice (log 8).
-/
def Obligations.DramAccessOutcomes : Prop :=
  ∀ (s : State) (n d : Nat) (a v : HostExpr), s.turn = .host → s.host.ret = none →
    let off := evalExpr s.host.temps a
    let widthOk := (n = 1 ∨ n = 2 ∨ n = 4 ∨ n = 8) ∧ off % n = 0
    let g := geomFields s.ag
    let cap := 2 ^ (g.cols + g.bg + g.banks + g.rows + g.rankw) * (if g.half = 1 then 2 else 4)
    let inRange := off + n ≤ cap ∧ off + n ≤ s.board.dramWindow
    (s.host.prog[s.host.pc]? = some (.dw n a v) →
      (¬widthOk → step s = .fault .dramMisaligned)
      ∧ (widthOk → s.stage ≠ .operational → step s = .fault .dramNotReady)
      ∧ (widthOk → s.stage = .operational → ¬inRange → step s = .fault .dramRange)
      ∧ (widthOk → s.stage = .operational → inRange →
        step s = .next (passTurn (nextLine (memWrite s off n (evalExpr s.host.temps v))))))
    ∧ (s.host.prog[s.host.pc]? = some (.dr n a d) →
      (¬widthOk → step s = .fault .dramMisaligned)
      ∧ (widthOk → s.stage ≠ .operational → step s = .fault .dramNotReady)
      ∧ (widthOk → s.stage = .operational → ¬inRange → step s = .fault .dramRange)
      ∧ (widthOk → s.stage = .operational → inRange → step s = .next (passTurn (nextLine
          (assignTemp d (memRead s off n) { s with draws := s.draws + n })))))

/-- R73, R79: little-endian bytes. After a write whose offsets reach distinct cells, each byte reads as its byte of the
value, a read of the same width returns the value, and every offset of another cell reads as before. -/
def Obligations.WriteThenReadIsLittleEndian : Prop :=
  ∀ (s : State) (off n v : Nat),
    (∀ i, i < n → cellOf s (off + i) ≠ none) →
    (∀ i j, i < n → j < n → cellOf s (off + i) = cellOf s (off + j) → i = j) →
    (∀ i, i < n → dramStored (memWrite s off n v) (off + i) = some (BitVec.ofNat 8 (v / 2 ^ (8 * i))))
    ∧ memRead (memWrite s off n v) off n = v % 2 ^ (8 * n)
    ∧ (∀ c, (∀ i, i < n → cellOf s c ≠ cellOf s (off + i)) →
        dramStored (memWrite s off n v) c = dramStored s c)

/-- R78 (a), (b): an access to an absent rank or an unwired lane: the write is dropped and the read returns a draw. -/
def Obligations.AbsentStorageDropsAndDraws : Prop :=
  ∀ (s : State) (a d : Nat) (b : Byte),
    let c := decodeOffset s.ctl.addrmap (geomFields s.ag) a
    (s.board.dev.ranks ≤ c.rank ∨ s.board.dev.half = 1 ∧ 2 ≤ c.lane) →
    dramWriteByte s a b = s ∧ dramReadByte s a d = Config.drawByte d

/-- R77, R78, R146: on a device that has every address bit the configuration uses, two different offsets below the
capacity never share storage: the decode through the address map is injective. -/
def Obligations.DistinctOffsetsReachDistinctCells : Prop :=
  ∀ (s : State) (a b : Nat), validGeometry (geomFields s.ag) = true →
    s.ctl.addrmap = addrmap 3 (geomFields s.ag) → deviceCovers s.board.dev (geomFields s.ag) →
    a < capacity (geomFields s.ag) → b < capacity (geomFields s.ag) → a ≠ b →
    cellOf s a ≠ none ∧ cellOf s a ≠ cellOf s b

/-- R282, R289, R296(b): in the column probe's configuration the alias probe at candidate c reports an alias exactly
when the device has no column bit c. -/
def Obligations.ColumnProbeFindsUnwiredBit : Prop :=
  ∀ (s : State) (c : Nat), 8 ≤ c → c ≤ 11 →
    (geomFields s.ag).cols = 12 → (geomFields s.ag).banks = 2 → (geomFields s.ag).rows = 14 →
    (geomFields s.ag).bg ≤ 2 → s.ctl.addrmap = addrmap 3 (geomFields s.ag) →
    1 ≤ s.board.dev.ranks → 3 ≤ s.board.dev.cols → (s.board.dev.half = 1 → (geomFields s.ag).half = 1) →
    (memRead (probeWrites s (2 ^ (c + busShift (geomFields s.ag).half + (geomFields s.ag).bg))) 0 4
        = Config.probeV1 ↔ s.board.dev.cols ≤ c)

/-- R280: the size calculator's formula, that it is the configured capacity (R76), and that on the legal ranges it lies
between 2^25 and 2^38 bytes. -/
def Obligations.SizeIsCapacityInRange : Prop :=
  (∀ g : Geometry, sizeOfGeometry g
      = 2 ^ (g.cols + g.rows + g.banks + g.bg) * (if g.half = 1 then 2 else 4) * 2 ^ g.rankw
    ∧ sizeOfGeometry g = capacity g)
  ∧ (∀ g : Geometry, validGeometry g = true → 2 ^ 25 ≤ sizeOfGeometry g ∧ sizeOfGeometry g ≤ 2 ^ 38)

/-- R281: the size is strictly increasing in each of cols, rows, banks, bg and rankw, and larger for full width. -/
def Obligations.SizeIsMonotone : Prop :=
  ∀ (g : Geometry) (k : Nat),
    (g.cols < k → sizeOfGeometry g < sizeOfGeometry { g with cols := k })
    ∧ (g.rows < k → sizeOfGeometry g < sizeOfGeometry { g with rows := k })
    ∧ (g.banks < k → sizeOfGeometry g < sizeOfGeometry { g with banks := k })
    ∧ (g.bg < k → sizeOfGeometry g < sizeOfGeometry { g with bg := k })
    ∧ (g.rankw < k → sizeOfGeometry g < sizeOfGeometry { g with rankw := k })
    ∧ sizeOfGeometry { g with half := 1 } < sizeOfGeometry { g with half := 0 }

/-! ## The host's lines (R109) -/

/-- R109, R350: POLL reads once per step; it goes on when the masked value matches and stays at its line otherwise, and
neither changes the block. -/
def Obligations.PollRepeatsUntilMatch : Prop :=
  ∀ (s : State) (off : BitVec 8) (m v : HostExpr), s.turn = .host → s.host.ret = none →
    s.host.prog[s.host.pc]? = some (.poll off m v) → off.toNat % 4 = 0 →
    let r := (readBlockReg s off).toNat
    (r &&& evalExpr s.host.temps m = evalExpr s.host.temps v →
      step s = .next (passTurn (nextLine (assignTemp 0 r s))))
    ∧ (r &&& evalExpr s.host.temps m ≠ evalExpr s.host.temps v → step s = .next (passTurn (assignTemp 0 r s)))

/-! ## Whole-machine rules -/

/-- R30, R106: STAGE becomes OPERATIONAL only at the micro-step that derives the coarse base, on the sequencer's turn,
and leaves OPERATIONAL only at CLK_INIT's hold step or by a block reset. -/
def Obligations.OperationalOnlyThroughCalibration : Prop :=
  ∀ s t : State, PipelineInv s → step s = .next t →
    (s.stage ≠ .operational → t.stage = .operational → s.turn = .sequencer ∧ s.fsm = .calDerive)
    ∧ (s.stage = .operational → t.stage ≠ .operational →
        (s.turn = .sequencer ∧ s.fsm = .ckHold) ∨ s.turn = .blockReset)

/-- R310, R314, R319: a command ends only on the sequencer's turn (a rejection apart, which never sets BUSY), with DONE
set and FSM idle, with CONFIG_INVALID only at 0x20 and CAL_FAIL only at 0x84. -/
def Obligations.CommandEndsOnlyWithItsResults : Prop :=
  ∀ s t : State, PipelineInv s → s.turn ≠ .blockReset → s.busy = true → step s = .next t → t.busy = false →
    s.turn = .sequencer ∧ t.cmdDone = true ∧ t.fsm = .idle
    ∧ (t.result = .ok ∨ t.result = .calFail ∧ s.fsm = .calUntrig ∨ t.result = .configInvalid ∧ s.fsm = .amValidate)

/-- R42: the parameters are never written. -/
def Obligations.BoardIsNeverWritten : Prop :=
  ∀ s t : State, step s = .next t → t.board = s.board

/-- Every step keeps the device's memory in its canonical form. -/
def Obligations.StepKeepsMemoryCanonical : Prop :=
  ∀ s t : State, Memory.wf s.dram → step s = .next t → Memory.wf t.dram

/-- The pipeline invariant holds right after reset. -/
def Obligations.ResetMeetsPipelineInv : Prop := PipelineInv State.reset ∧ Memory.wf State.reset.dram

/-- Every step of every agent, a block reset included, keeps the pipeline invariant (R22, R30, R106, R211, R218, R312,
R345, R351, R353, R362). -/
def Obligations.StepKeepsPipelineInv : Prop :=
  ∀ s t : State, PipelineInv s → step s = .next t → PipelineInv t

/-! ## GEOM during BRINGUP -/

/-- R355: BRINGUP reads GEOM in its CFG_ADDRMAP sub-command and then in its CFG_ODT sub-command, and nowhere else: a
GEOM written at any other time changes nothing of its step, the check is on the GEOM of then, and the routing constant
follows the HALF of then, whatever AG.half is. The two micro-steps, 0x20 and 0x28, are the model's reading (log 9). -/
def Obligations.BringupReadsGeomTwice : Prop :=
  (∀ (s t : State) (x : BitVec 17), s.turn = .sequencer → s.fsm ≠ .amValidate → s.fsm ≠ .odtMap →
    exec .bringup s = .next t → exec .bringup { s with geom := x } = .next { t with geom := x })
  ∧ (∀ s : State, s.turn = .sequencer → s.sub = 1 → s.fsm = .amValidate → validGeometry (geomFields s.geom) = true →
    exec .bringup s = .next { s with fsm := .amMstr, opGeom := s.geom })
  ∧ (∀ s : State, s.turn = .sequencer → s.sub = 2 → s.fsm = .odtMap →
    exec .bringup s = .next { s with
      fsm := .odtTim, opGeom := s.geom
      ctl := { s.ctl with odtmap := if s.geom.getLsbD 16 then Config.odtMapHalf else Config.odtMapFull } })
end

