-- ==== Sys2Proof/Laws/Decode.lean ====
section
/-! SUPPORT. Command words: the opcode table read in both directions. -/

namespace Sys2Proof

@[simp] theorem instrOfOpcode_opcode (i : Instr) : instrOfOpcode i.opcode = some i := by
  cases i <;> decide

@[simp] theorem opcField_encode (i : Instr) : opcField (encode i) = i.opcode := by
  cases i <;> decide

@[simp] theorem rsvField_encode (i : Instr) : rsvField (encode i) = 0 := by
  cases i <;> decide

@[simp] theorem decode_encode (i : Instr) : decode (encode i) = .ok i := by
  simp [decode]

/-- What an opcode selects has that opcode (R101). -/
theorem opcode_of_instrOfOpcode {opc : BitVec 8} {i : Instr} (h : instrOfOpcode opc = some i) : i.opcode = opc := by
  unfold instrOfOpcode at h
  repeat' split at h
  all_goals first
    | (injection h with h; subst h; simp only [Instr.opcode]; symm; assumption)
    | cases h

end Sys2Proof
end

