-- ==== Sys2Proof/Laws/State.lean ====
section
/-! SUPPORT. The fields of a state after each shared update, one lemma per field per update: later proofs rewrite with
them and do not unfold the updates. -/

namespace Sys2Proof.Machine

/-! `endCmd` -/

@[simp] theorem endCmd_board (r : Result) (s : State) : (endCmd r s).board = s.board := rfl
@[simp] theorem endCmd_fsm (r : Result) (s : State) : (endCmd r s).fsm = .idle := rfl
@[simp] theorem endCmd_busy (r : Result) (s : State) : (endCmd r s).busy = false := rfl
@[simp] theorem endCmd_cmdDone (r : Result) (s : State) : (endCmd r s).cmdDone = true := rfl
@[simp] theorem endCmd_result (r : Result) (s : State) : (endCmd r s).result = r := rfl
@[simp] theorem endCmd_fatal (r : Result) (s : State) : (endCmd r s).fatal = s.fatal := rfl
@[simp] theorem endCmd_ovr (r : Result) (s : State) : (endCmd r s).ovr = s.ovr := rfl
@[simp] theorem endCmd_stage (r : Result) (s : State) : (endCmd r s).stage = s.stage := rfl
@[simp] theorem endCmd_amDone (r : Result) (s : State) : (endCmd r s).amDone = s.amDone := rfl
@[simp] theorem endCmd_odtDone (r : Result) (s : State) : (endCmd r s).odtDone = s.odtDone := rfl
@[simp] theorem endCmd_timDone (r : Result) (s : State) : (endCmd r s).timDone = s.timDone := rfl
@[simp] theorem endCmd_attempts (r : Result) (s : State) : (endCmd r s).attempts = s.attempts := rfl
@[simp] theorem endCmd_geom (r : Result) (s : State) : (endCmd r s).geom = s.geom := rfl
@[simp] theorem endCmd_calBase (r : Result) (s : State) : (endCmd r s).calBase = s.calBase := rfl
@[simp] theorem endCmd_ag (r : Result) (s : State) : (endCmd r s).ag = s.ag := rfl
@[simp] theorem endCmd_agValid (r : Result) (s : State) : (endCmd r s).agValid = s.agValid := rfl
@[simp] theorem endCmd_curCmd (r : Result) (s : State) : (endCmd r s).curCmd = s.curCmd := rfl
@[simp] theorem endCmd_mrIdx (r : Result) (s : State) : (endCmd r s).mrIdx = s.mrIdx := rfl
@[simp] theorem endCmd_pass (r : Result) (s : State) : (endCmd r s).pass = s.pass := rfl
@[simp] theorem endCmd_att (r : Result) (s : State) : (endCmd r s).att = s.att := rfl
@[simp] theorem endCmd_passOk (r : Result) (s : State) : (endCmd r s).passOk = s.passOk := rfl
@[simp] theorem endCmd_sub (r : Result) (s : State) : (endCmd r s).sub = s.sub := rfl
@[simp] theorem endCmd_opGeom (r : Result) (s : State) : (endCmd r s).opGeom = s.opGeom := rfl
@[simp] theorem endCmd_phyStarted (r : Result) (s : State) : (endCmd r s).phyStarted = s.phyStarted := rfl
@[simp] theorem endCmd_ccu (r : Result) (s : State) : (endCmd r s).ccu = s.ccu := rfl
@[simp] theorem endCmd_pll (r : Result) (s : State) : (endCmd r s).pll = s.pll := rfl
@[simp] theorem endCmd_ctl (r : Result) (s : State) : (endCmd r s).ctl = s.ctl := rfl
@[simp] theorem endCmd_phy (r : Result) (s : State) : (endCmd r s).phy = s.phy := rfl
@[simp] theorem endCmd_dram (r : Result) (s : State) : (endCmd r s).dram = s.dram := rfl
@[simp] theorem endCmd_devMr (r : Result) (s : State) : (endCmd r s).devMr = s.devMr := rfl
@[simp] theorem endCmd_regWrites (r : Result) (s : State) : (endCmd r s).regWrites = s.regWrites := rfl
@[simp] theorem endCmd_host (r : Result) (s : State) : (endCmd r s).host = s.host := rfl
@[simp] theorem endCmd_turn (r : Result) (s : State) : (endCmd r s).turn = s.turn := rfl
@[simp] theorem endCmd_sched (r : Result) (s : State) : (endCmd r s).sched = s.sched := rfl
@[simp] theorem endCmd_tick (r : Result) (s : State) : (endCmd r s).tick = s.tick := rfl
@[simp] theorem endCmd_draws (r : Result) (s : State) : (endCmd r s).draws = s.draws := rfl

/-! `accept` -/

@[simp] theorem accept_board (opc : BitVec 8) (s : State) : (accept opc s).board = s.board := rfl
@[simp] theorem accept_fsm (opc : BitVec 8) (s : State) : (accept opc s).fsm = s.fsm := rfl
@[simp] theorem accept_busy (opc : BitVec 8) (s : State) : (accept opc s).busy = true := rfl
@[simp] theorem accept_cmdDone (opc : BitVec 8) (s : State) : (accept opc s).cmdDone = false := rfl
@[simp] theorem accept_result (opc : BitVec 8) (s : State) : (accept opc s).result = .ok := rfl
@[simp] theorem accept_fatal (opc : BitVec 8) (s : State) : (accept opc s).fatal = s.fatal := rfl
@[simp] theorem accept_ovr (opc : BitVec 8) (s : State) : (accept opc s).ovr = s.ovr := rfl
@[simp] theorem accept_stage (opc : BitVec 8) (s : State) : (accept opc s).stage = s.stage := rfl
@[simp] theorem accept_amDone (opc : BitVec 8) (s : State) : (accept opc s).amDone = s.amDone := rfl
@[simp] theorem accept_odtDone (opc : BitVec 8) (s : State) : (accept opc s).odtDone = s.odtDone := rfl
@[simp] theorem accept_timDone (opc : BitVec 8) (s : State) : (accept opc s).timDone = s.timDone := rfl
@[simp] theorem accept_attempts (opc : BitVec 8) (s : State) : (accept opc s).attempts = s.attempts := rfl
@[simp] theorem accept_geom (opc : BitVec 8) (s : State) : (accept opc s).geom = s.geom := rfl
@[simp] theorem accept_calBase (opc : BitVec 8) (s : State) : (accept opc s).calBase = s.calBase := rfl
@[simp] theorem accept_ag (opc : BitVec 8) (s : State) : (accept opc s).ag = s.ag := rfl
@[simp] theorem accept_agValid (opc : BitVec 8) (s : State) : (accept opc s).agValid = s.agValid := rfl
@[simp] theorem accept_curCmd (opc : BitVec 8) (s : State) : (accept opc s).curCmd = opc := rfl
@[simp] theorem accept_mrIdx (opc : BitVec 8) (s : State) : (accept opc s).mrIdx = s.mrIdx := rfl
@[simp] theorem accept_pass (opc : BitVec 8) (s : State) : (accept opc s).pass = s.pass := rfl
@[simp] theorem accept_att (opc : BitVec 8) (s : State) : (accept opc s).att = s.att := rfl
@[simp] theorem accept_passOk (opc : BitVec 8) (s : State) : (accept opc s).passOk = s.passOk := rfl
@[simp] theorem accept_sub (opc : BitVec 8) (s : State) : (accept opc s).sub = s.sub := rfl
@[simp] theorem accept_opGeom (opc : BitVec 8) (s : State) : (accept opc s).opGeom = s.opGeom := rfl
@[simp] theorem accept_phyStarted (opc : BitVec 8) (s : State) : (accept opc s).phyStarted = s.phyStarted := rfl
@[simp] theorem accept_ccu (opc : BitVec 8) (s : State) : (accept opc s).ccu = s.ccu := rfl
@[simp] theorem accept_pll (opc : BitVec 8) (s : State) : (accept opc s).pll = s.pll := rfl
@[simp] theorem accept_ctl (opc : BitVec 8) (s : State) : (accept opc s).ctl = s.ctl := rfl
@[simp] theorem accept_phy (opc : BitVec 8) (s : State) : (accept opc s).phy = s.phy := rfl
@[simp] theorem accept_dram (opc : BitVec 8) (s : State) : (accept opc s).dram = s.dram := rfl
@[simp] theorem accept_devMr (opc : BitVec 8) (s : State) : (accept opc s).devMr = s.devMr := rfl
@[simp] theorem accept_regWrites (opc : BitVec 8) (s : State) : (accept opc s).regWrites = s.regWrites := rfl
@[simp] theorem accept_host (opc : BitVec 8) (s : State) : (accept opc s).host = s.host := rfl
@[simp] theorem accept_turn (opc : BitVec 8) (s : State) : (accept opc s).turn = s.turn := rfl
@[simp] theorem accept_sched (opc : BitVec 8) (s : State) : (accept opc s).sched = s.sched := rfl
@[simp] theorem accept_tick (opc : BitVec 8) (s : State) : (accept opc s).tick = s.tick := rfl
@[simp] theorem accept_draws (opc : BitVec 8) (s : State) : (accept opc s).draws = s.draws := rfl

/-! `startCommand` -/

@[simp] theorem startCommand_board (i : Instr) (s : State) : (startCommand i s).board = s.board := rfl
@[simp] theorem startCommand_fsm (i : Instr) (s : State) : (startCommand i s).fsm = firstMicro i := rfl
@[simp] theorem startCommand_busy (i : Instr) (s : State) : (startCommand i s).busy = s.busy := rfl
@[simp] theorem startCommand_cmdDone (i : Instr) (s : State) : (startCommand i s).cmdDone = s.cmdDone := rfl
@[simp] theorem startCommand_result (i : Instr) (s : State) : (startCommand i s).result = s.result := rfl
@[simp] theorem startCommand_fatal (i : Instr) (s : State) : (startCommand i s).fatal = s.fatal := rfl
@[simp] theorem startCommand_ovr (i : Instr) (s : State) : (startCommand i s).ovr = s.ovr := rfl
@[simp] theorem startCommand_stage (i : Instr) (s : State) : (startCommand i s).stage = s.stage := rfl
@[simp] theorem startCommand_amDone (i : Instr) (s : State) : (startCommand i s).amDone = s.amDone := rfl
@[simp] theorem startCommand_odtDone (i : Instr) (s : State) : (startCommand i s).odtDone = s.odtDone := rfl
@[simp] theorem startCommand_timDone (i : Instr) (s : State) : (startCommand i s).timDone = s.timDone := rfl
@[simp] theorem startCommand_attempts (i : Instr) (s : State) : (startCommand i s).attempts = s.attempts := rfl
@[simp] theorem startCommand_geom (i : Instr) (s : State) : (startCommand i s).geom = s.geom := rfl
@[simp] theorem startCommand_calBase (i : Instr) (s : State) : (startCommand i s).calBase = s.calBase := rfl
@[simp] theorem startCommand_ag (i : Instr) (s : State) : (startCommand i s).ag = s.ag := rfl
@[simp] theorem startCommand_agValid (i : Instr) (s : State) : (startCommand i s).agValid = s.agValid := rfl
@[simp] theorem startCommand_curCmd (i : Instr) (s : State) : (startCommand i s).curCmd = s.curCmd := rfl
@[simp] theorem startCommand_mrIdx (i : Instr) (s : State) : (startCommand i s).mrIdx = s.mrIdx := rfl
@[simp] theorem startCommand_pass (i : Instr) (s : State) : (startCommand i s).pass = s.pass := rfl
@[simp] theorem startCommand_att (i : Instr) (s : State) : (startCommand i s).att = s.att := rfl
@[simp] theorem startCommand_passOk (i : Instr) (s : State) : (startCommand i s).passOk = s.passOk := rfl
@[simp] theorem startCommand_opGeom (i : Instr) (s : State) : (startCommand i s).opGeom = latchedGeom i s := rfl
@[simp] theorem startCommand_phyStarted (i : Instr) (s : State) : (startCommand i s).phyStarted = s.phyStarted := rfl
@[simp] theorem startCommand_ccu (i : Instr) (s : State) : (startCommand i s).ccu = s.ccu := rfl
@[simp] theorem startCommand_pll (i : Instr) (s : State) : (startCommand i s).pll = s.pll := rfl
@[simp] theorem startCommand_ctl (i : Instr) (s : State) : (startCommand i s).ctl = s.ctl := rfl
@[simp] theorem startCommand_phy (i : Instr) (s : State) : (startCommand i s).phy = s.phy := rfl
@[simp] theorem startCommand_dram (i : Instr) (s : State) : (startCommand i s).dram = s.dram := rfl
@[simp] theorem startCommand_devMr (i : Instr) (s : State) : (startCommand i s).devMr = s.devMr := rfl
@[simp] theorem startCommand_regWrites (i : Instr) (s : State) : (startCommand i s).regWrites = s.regWrites := rfl
@[simp] theorem startCommand_host (i : Instr) (s : State) : (startCommand i s).host = s.host := rfl
@[simp] theorem startCommand_turn (i : Instr) (s : State) : (startCommand i s).turn = s.turn := rfl
@[simp] theorem startCommand_sched (i : Instr) (s : State) : (startCommand i s).sched = s.sched := rfl
@[simp] theorem startCommand_tick (i : Instr) (s : State) : (startCommand i s).tick = s.tick := rfl
@[simp] theorem startCommand_draws (i : Instr) (s : State) : (startCommand i s).draws = s.draws := rfl

/-! `startSub` -/

@[simp] theorem startSub_board (j : Nat) (i : Instr) (s : State) : (startSub j i s).board = s.board := rfl
@[simp] theorem startSub_fsm (j : Nat) (i : Instr) (s : State) : (startSub j i s).fsm = firstMicro i := rfl
@[simp] theorem startSub_busy (j : Nat) (i : Instr) (s : State) : (startSub j i s).busy = s.busy := rfl
@[simp] theorem startSub_cmdDone (j : Nat) (i : Instr) (s : State) : (startSub j i s).cmdDone = s.cmdDone := rfl
@[simp] theorem startSub_result (j : Nat) (i : Instr) (s : State) : (startSub j i s).result = s.result := rfl
@[simp] theorem startSub_fatal (j : Nat) (i : Instr) (s : State) : (startSub j i s).fatal = s.fatal := rfl
@[simp] theorem startSub_ovr (j : Nat) (i : Instr) (s : State) : (startSub j i s).ovr = s.ovr := rfl
@[simp] theorem startSub_stage (j : Nat) (i : Instr) (s : State) : (startSub j i s).stage = s.stage := rfl
@[simp] theorem startSub_amDone (j : Nat) (i : Instr) (s : State) : (startSub j i s).amDone = s.amDone := rfl
@[simp] theorem startSub_odtDone (j : Nat) (i : Instr) (s : State) : (startSub j i s).odtDone = s.odtDone := rfl
@[simp] theorem startSub_timDone (j : Nat) (i : Instr) (s : State) : (startSub j i s).timDone = s.timDone := rfl
@[simp] theorem startSub_attempts (j : Nat) (i : Instr) (s : State) : (startSub j i s).attempts = s.attempts := rfl
@[simp] theorem startSub_geom (j : Nat) (i : Instr) (s : State) : (startSub j i s).geom = s.geom := rfl
@[simp] theorem startSub_calBase (j : Nat) (i : Instr) (s : State) : (startSub j i s).calBase = s.calBase := rfl
@[simp] theorem startSub_ag (j : Nat) (i : Instr) (s : State) : (startSub j i s).ag = s.ag := rfl
@[simp] theorem startSub_agValid (j : Nat) (i : Instr) (s : State) : (startSub j i s).agValid = s.agValid := rfl
@[simp] theorem startSub_curCmd (j : Nat) (i : Instr) (s : State) : (startSub j i s).curCmd = s.curCmd := rfl
@[simp] theorem startSub_mrIdx (j : Nat) (i : Instr) (s : State) : (startSub j i s).mrIdx = s.mrIdx := rfl
@[simp] theorem startSub_pass (j : Nat) (i : Instr) (s : State) : (startSub j i s).pass = s.pass := rfl
@[simp] theorem startSub_att (j : Nat) (i : Instr) (s : State) : (startSub j i s).att = s.att := rfl
@[simp] theorem startSub_passOk (j : Nat) (i : Instr) (s : State) : (startSub j i s).passOk = s.passOk := rfl
@[simp] theorem startSub_sub (j : Nat) (i : Instr) (s : State) : (startSub j i s).sub = j := rfl
@[simp] theorem startSub_opGeom (j : Nat) (i : Instr) (s : State) : (startSub j i s).opGeom = s.opGeom := rfl
@[simp] theorem startSub_phyStarted (j : Nat) (i : Instr) (s : State) : (startSub j i s).phyStarted = s.phyStarted := rfl
@[simp] theorem startSub_ccu (j : Nat) (i : Instr) (s : State) : (startSub j i s).ccu = s.ccu := rfl
@[simp] theorem startSub_pll (j : Nat) (i : Instr) (s : State) : (startSub j i s).pll = s.pll := rfl
@[simp] theorem startSub_ctl (j : Nat) (i : Instr) (s : State) : (startSub j i s).ctl = s.ctl := rfl
@[simp] theorem startSub_phy (j : Nat) (i : Instr) (s : State) : (startSub j i s).phy = s.phy := rfl
@[simp] theorem startSub_dram (j : Nat) (i : Instr) (s : State) : (startSub j i s).dram = s.dram := rfl
@[simp] theorem startSub_devMr (j : Nat) (i : Instr) (s : State) : (startSub j i s).devMr = s.devMr := rfl
@[simp] theorem startSub_regWrites (j : Nat) (i : Instr) (s : State) : (startSub j i s).regWrites = s.regWrites := rfl
@[simp] theorem startSub_host (j : Nat) (i : Instr) (s : State) : (startSub j i s).host = s.host := rfl
@[simp] theorem startSub_turn (j : Nat) (i : Instr) (s : State) : (startSub j i s).turn = s.turn := rfl
@[simp] theorem startSub_sched (j : Nat) (i : Instr) (s : State) : (startSub j i s).sched = s.sched := rfl
@[simp] theorem startSub_tick (j : Nat) (i : Instr) (s : State) : (startSub j i s).tick = s.tick := rfl
@[simp] theorem startSub_draws (j : Nat) (i : Instr) (s : State) : (startSub j i s).draws = s.draws := rfl

/-! `readOperand` -/

@[simp] theorem readOperand_board (i : Instr) (s : State) : (readOperand i s).board = s.board := rfl
@[simp] theorem readOperand_fsm (i : Instr) (s : State) : (readOperand i s).fsm = s.fsm := rfl
@[simp] theorem readOperand_busy (i : Instr) (s : State) : (readOperand i s).busy = s.busy := rfl
@[simp] theorem readOperand_cmdDone (i : Instr) (s : State) : (readOperand i s).cmdDone = s.cmdDone := rfl
@[simp] theorem readOperand_result (i : Instr) (s : State) : (readOperand i s).result = s.result := rfl
@[simp] theorem readOperand_fatal (i : Instr) (s : State) : (readOperand i s).fatal = s.fatal := rfl
@[simp] theorem readOperand_ovr (i : Instr) (s : State) : (readOperand i s).ovr = s.ovr := rfl
@[simp] theorem readOperand_stage (i : Instr) (s : State) : (readOperand i s).stage = s.stage := rfl
@[simp] theorem readOperand_amDone (i : Instr) (s : State) : (readOperand i s).amDone = s.amDone := rfl
@[simp] theorem readOperand_odtDone (i : Instr) (s : State) : (readOperand i s).odtDone = s.odtDone := rfl
@[simp] theorem readOperand_timDone (i : Instr) (s : State) : (readOperand i s).timDone = s.timDone := rfl
@[simp] theorem readOperand_attempts (i : Instr) (s : State) : (readOperand i s).attempts = s.attempts := rfl
@[simp] theorem readOperand_geom (i : Instr) (s : State) : (readOperand i s).geom = s.geom := rfl
@[simp] theorem readOperand_calBase (i : Instr) (s : State) : (readOperand i s).calBase = s.calBase := rfl
@[simp] theorem readOperand_ag (i : Instr) (s : State) : (readOperand i s).ag = s.ag := rfl
@[simp] theorem readOperand_agValid (i : Instr) (s : State) : (readOperand i s).agValid = s.agValid := rfl
@[simp] theorem readOperand_curCmd (i : Instr) (s : State) : (readOperand i s).curCmd = s.curCmd := rfl
@[simp] theorem readOperand_mrIdx (i : Instr) (s : State) : (readOperand i s).mrIdx = s.mrIdx := rfl
@[simp] theorem readOperand_pass (i : Instr) (s : State) : (readOperand i s).pass = s.pass := rfl
@[simp] theorem readOperand_att (i : Instr) (s : State) : (readOperand i s).att = s.att := rfl
@[simp] theorem readOperand_passOk (i : Instr) (s : State) : (readOperand i s).passOk = s.passOk := rfl
@[simp] theorem readOperand_sub (i : Instr) (s : State) : (readOperand i s).sub = s.sub := rfl
@[simp] theorem readOperand_opGeom (i : Instr) (s : State) : (readOperand i s).opGeom = if s.fsm = firstMicro i then latchedGeom i s else s.opGeom := rfl
@[simp] theorem readOperand_phyStarted (i : Instr) (s : State) : (readOperand i s).phyStarted = s.phyStarted := rfl
@[simp] theorem readOperand_ccu (i : Instr) (s : State) : (readOperand i s).ccu = s.ccu := rfl
@[simp] theorem readOperand_pll (i : Instr) (s : State) : (readOperand i s).pll = s.pll := rfl
@[simp] theorem readOperand_ctl (i : Instr) (s : State) : (readOperand i s).ctl = s.ctl := rfl
@[simp] theorem readOperand_phy (i : Instr) (s : State) : (readOperand i s).phy = s.phy := rfl
@[simp] theorem readOperand_dram (i : Instr) (s : State) : (readOperand i s).dram = s.dram := rfl
@[simp] theorem readOperand_devMr (i : Instr) (s : State) : (readOperand i s).devMr = s.devMr := rfl
@[simp] theorem readOperand_regWrites (i : Instr) (s : State) : (readOperand i s).regWrites = s.regWrites := rfl
@[simp] theorem readOperand_host (i : Instr) (s : State) : (readOperand i s).host = s.host := rfl
@[simp] theorem readOperand_turn (i : Instr) (s : State) : (readOperand i s).turn = s.turn := rfl
@[simp] theorem readOperand_sched (i : Instr) (s : State) : (readOperand i s).sched = s.sched := rfl
@[simp] theorem readOperand_tick (i : Instr) (s : State) : (readOperand i s).tick = s.tick := rfl
@[simp] theorem readOperand_draws (i : Instr) (s : State) : (readOperand i s).draws = s.draws := rfl

/-! `regWrite` -/

@[simp] theorem regWrite_board (s : State) (a : Nat) (v : Word) : (regWrite s a v).board = s.board := rfl
@[simp] theorem regWrite_fsm (s : State) (a : Nat) (v : Word) : (regWrite s a v).fsm = s.fsm := rfl
@[simp] theorem regWrite_busy (s : State) (a : Nat) (v : Word) : (regWrite s a v).busy = s.busy := rfl
@[simp] theorem regWrite_cmdDone (s : State) (a : Nat) (v : Word) : (regWrite s a v).cmdDone = s.cmdDone := rfl
@[simp] theorem regWrite_result (s : State) (a : Nat) (v : Word) : (regWrite s a v).result = s.result := rfl
@[simp] theorem regWrite_fatal (s : State) (a : Nat) (v : Word) : (regWrite s a v).fatal = s.fatal := rfl
@[simp] theorem regWrite_ovr (s : State) (a : Nat) (v : Word) : (regWrite s a v).ovr = s.ovr := rfl
@[simp] theorem regWrite_stage (s : State) (a : Nat) (v : Word) : (regWrite s a v).stage = s.stage := rfl
@[simp] theorem regWrite_amDone (s : State) (a : Nat) (v : Word) : (regWrite s a v).amDone = s.amDone := rfl
@[simp] theorem regWrite_odtDone (s : State) (a : Nat) (v : Word) : (regWrite s a v).odtDone = s.odtDone := rfl
@[simp] theorem regWrite_timDone (s : State) (a : Nat) (v : Word) : (regWrite s a v).timDone = s.timDone := rfl
@[simp] theorem regWrite_attempts (s : State) (a : Nat) (v : Word) : (regWrite s a v).attempts = s.attempts := rfl
@[simp] theorem regWrite_geom (s : State) (a : Nat) (v : Word) : (regWrite s a v).geom = s.geom := rfl
@[simp] theorem regWrite_calBase (s : State) (a : Nat) (v : Word) : (regWrite s a v).calBase = s.calBase := rfl
@[simp] theorem regWrite_ag (s : State) (a : Nat) (v : Word) : (regWrite s a v).ag = s.ag := rfl
@[simp] theorem regWrite_agValid (s : State) (a : Nat) (v : Word) : (regWrite s a v).agValid = s.agValid := rfl
@[simp] theorem regWrite_curCmd (s : State) (a : Nat) (v : Word) : (regWrite s a v).curCmd = s.curCmd := rfl
@[simp] theorem regWrite_mrIdx (s : State) (a : Nat) (v : Word) : (regWrite s a v).mrIdx = s.mrIdx := rfl
@[simp] theorem regWrite_pass (s : State) (a : Nat) (v : Word) : (regWrite s a v).pass = s.pass := rfl
@[simp] theorem regWrite_att (s : State) (a : Nat) (v : Word) : (regWrite s a v).att = s.att := rfl
@[simp] theorem regWrite_passOk (s : State) (a : Nat) (v : Word) : (regWrite s a v).passOk = s.passOk := rfl
@[simp] theorem regWrite_sub (s : State) (a : Nat) (v : Word) : (regWrite s a v).sub = s.sub := rfl
@[simp] theorem regWrite_opGeom (s : State) (a : Nat) (v : Word) : (regWrite s a v).opGeom = s.opGeom := rfl
@[simp] theorem regWrite_phyStarted (s : State) (a : Nat) (v : Word) : (regWrite s a v).phyStarted = s.phyStarted := rfl
@[simp] theorem regWrite_ccu (s : State) (a : Nat) (v : Word) : (regWrite s a v).ccu = s.ccu := rfl
@[simp] theorem regWrite_pll (s : State) (a : Nat) (v : Word) : (regWrite s a v).pll = s.pll := rfl
@[simp] theorem regWrite_ctl (s : State) (a : Nat) (v : Word) : (regWrite s a v).ctl = s.ctl := rfl
@[simp] theorem regWrite_phy (s : State) (a : Nat) (v : Word) : (regWrite s a v).phy = s.phy := rfl
@[simp] theorem regWrite_dram (s : State) (a : Nat) (v : Word) : (regWrite s a v).dram = s.dram := rfl
@[simp] theorem regWrite_devMr (s : State) (a : Nat) (v : Word) : (regWrite s a v).devMr = s.devMr := rfl
@[simp] theorem regWrite_regWrites (s : State) (a : Nat) (v : Word) : (regWrite s a v).regWrites = (a, v) :: s.regWrites := rfl
@[simp] theorem regWrite_host (s : State) (a : Nat) (v : Word) : (regWrite s a v).host = s.host := rfl
@[simp] theorem regWrite_turn (s : State) (a : Nat) (v : Word) : (regWrite s a v).turn = s.turn := rfl
@[simp] theorem regWrite_sched (s : State) (a : Nat) (v : Word) : (regWrite s a v).sched = s.sched := rfl
@[simp] theorem regWrite_tick (s : State) (a : Nat) (v : Word) : (regWrite s a v).tick = s.tick := rfl
@[simp] theorem regWrite_draws (s : State) (a : Nat) (v : Word) : (regWrite s a v).draws = s.draws := rfl

/-! `domainReset` -/

@[simp] theorem domainReset_board (s : State) : (domainReset s).board = s.board := rfl
@[simp] theorem domainReset_fsm (s : State) : (domainReset s).fsm = s.fsm := rfl
@[simp] theorem domainReset_busy (s : State) : (domainReset s).busy = s.busy := rfl
@[simp] theorem domainReset_cmdDone (s : State) : (domainReset s).cmdDone = s.cmdDone := rfl
@[simp] theorem domainReset_result (s : State) : (domainReset s).result = s.result := rfl
@[simp] theorem domainReset_fatal (s : State) : (domainReset s).fatal = s.fatal := rfl
@[simp] theorem domainReset_ovr (s : State) : (domainReset s).ovr = s.ovr := rfl
@[simp] theorem domainReset_stage (s : State) : (domainReset s).stage = s.stage := rfl
@[simp] theorem domainReset_amDone (s : State) : (domainReset s).amDone = s.amDone := rfl
@[simp] theorem domainReset_odtDone (s : State) : (domainReset s).odtDone = s.odtDone := rfl
@[simp] theorem domainReset_timDone (s : State) : (domainReset s).timDone = s.timDone := rfl
@[simp] theorem domainReset_attempts (s : State) : (domainReset s).attempts = s.attempts := rfl
@[simp] theorem domainReset_geom (s : State) : (domainReset s).geom = s.geom := rfl
@[simp] theorem domainReset_calBase (s : State) : (domainReset s).calBase = s.calBase := rfl
@[simp] theorem domainReset_ag (s : State) : (domainReset s).ag = s.ag := rfl
@[simp] theorem domainReset_agValid (s : State) : (domainReset s).agValid = false := rfl
@[simp] theorem domainReset_curCmd (s : State) : (domainReset s).curCmd = s.curCmd := rfl
@[simp] theorem domainReset_mrIdx (s : State) : (domainReset s).mrIdx = s.mrIdx := rfl
@[simp] theorem domainReset_pass (s : State) : (domainReset s).pass = s.pass := rfl
@[simp] theorem domainReset_att (s : State) : (domainReset s).att = s.att := rfl
@[simp] theorem domainReset_passOk (s : State) : (domainReset s).passOk = s.passOk := rfl
@[simp] theorem domainReset_sub (s : State) : (domainReset s).sub = s.sub := rfl
@[simp] theorem domainReset_opGeom (s : State) : (domainReset s).opGeom = s.opGeom := rfl
@[simp] theorem domainReset_phyStarted (s : State) : (domainReset s).phyStarted = false := rfl
@[simp] theorem domainReset_ccu (s : State) : (domainReset s).ccu = s.ccu := rfl
@[simp] theorem domainReset_pll (s : State) : (domainReset s).pll = s.pll := rfl
@[simp] theorem domainReset_ctl (s : State) : (domainReset s).ctl = { Config.anyCtl s.draws with mrBusy := false, opmode := .init } := rfl
@[simp] theorem domainReset_phy (s : State) : (domainReset s).phy = { Config.anyPhy s.draws with rst := true, initDone := false, calTrig := false } := rfl
@[simp] theorem domainReset_dram (s : State) : (domainReset s).dram = [] := rfl
@[simp] theorem domainReset_devMr (s : State) : (domainReset s).devMr = Config.anyDevMr s.draws := rfl
@[simp] theorem domainReset_regWrites (s : State) : (domainReset s).regWrites = s.regWrites := rfl
@[simp] theorem domainReset_host (s : State) : (domainReset s).host = s.host := rfl
@[simp] theorem domainReset_turn (s : State) : (domainReset s).turn = s.turn := rfl
@[simp] theorem domainReset_sched (s : State) : (domainReset s).sched = s.sched := rfl
@[simp] theorem domainReset_tick (s : State) : (domainReset s).tick = s.tick := rfl
@[simp] theorem domainReset_draws (s : State) : (domainReset s).draws = s.draws + 1 := rfl

/-! `blockReset` -/

@[simp] theorem blockReset_board (s : State) : (blockReset s).board = s.board := rfl
@[simp] theorem blockReset_fsm (s : State) : (blockReset s).fsm = State.reset.fsm := rfl
@[simp] theorem blockReset_busy (s : State) : (blockReset s).busy = State.reset.busy := rfl
@[simp] theorem blockReset_cmdDone (s : State) : (blockReset s).cmdDone = State.reset.cmdDone := rfl
@[simp] theorem blockReset_result (s : State) : (blockReset s).result = State.reset.result := rfl
@[simp] theorem blockReset_fatal (s : State) : (blockReset s).fatal = State.reset.fatal := rfl
@[simp] theorem blockReset_ovr (s : State) : (blockReset s).ovr = State.reset.ovr := rfl
@[simp] theorem blockReset_stage (s : State) : (blockReset s).stage = State.reset.stage := rfl
@[simp] theorem blockReset_amDone (s : State) : (blockReset s).amDone = State.reset.amDone := rfl
@[simp] theorem blockReset_odtDone (s : State) : (blockReset s).odtDone = State.reset.odtDone := rfl
@[simp] theorem blockReset_timDone (s : State) : (blockReset s).timDone = State.reset.timDone := rfl
@[simp] theorem blockReset_attempts (s : State) : (blockReset s).attempts = State.reset.attempts := rfl
@[simp] theorem blockReset_geom (s : State) : (blockReset s).geom = State.reset.geom := rfl
@[simp] theorem blockReset_calBase (s : State) : (blockReset s).calBase = State.reset.calBase := rfl
@[simp] theorem blockReset_ag (s : State) : (blockReset s).ag = State.reset.ag := rfl
@[simp] theorem blockReset_agValid (s : State) : (blockReset s).agValid = State.reset.agValid := rfl
@[simp] theorem blockReset_curCmd (s : State) : (blockReset s).curCmd = State.reset.curCmd := rfl
@[simp] theorem blockReset_mrIdx (s : State) : (blockReset s).mrIdx = State.reset.mrIdx := rfl
@[simp] theorem blockReset_pass (s : State) : (blockReset s).pass = State.reset.pass := rfl
@[simp] theorem blockReset_att (s : State) : (blockReset s).att = State.reset.att := rfl
@[simp] theorem blockReset_passOk (s : State) : (blockReset s).passOk = State.reset.passOk := rfl
@[simp] theorem blockReset_sub (s : State) : (blockReset s).sub = State.reset.sub := rfl
@[simp] theorem blockReset_opGeom (s : State) : (blockReset s).opGeom = State.reset.opGeom := rfl
@[simp] theorem blockReset_phyStarted (s : State) : (blockReset s).phyStarted = State.reset.phyStarted := rfl
@[simp] theorem blockReset_ccu (s : State) : (blockReset s).ccu = Config.anyCcu s.draws := rfl
@[simp] theorem blockReset_pll (s : State) : (blockReset s).pll = Config.anyPll s.draws := rfl
@[simp] theorem blockReset_ctl (s : State) : (blockReset s).ctl = Config.anyCtl s.draws := rfl
@[simp] theorem blockReset_phy (s : State) : (blockReset s).phy = Config.anyPhy s.draws := rfl
@[simp] theorem blockReset_dram (s : State) : (blockReset s).dram = [] := rfl
@[simp] theorem blockReset_devMr (s : State) : (blockReset s).devMr = Config.anyDevMr s.draws := rfl
@[simp] theorem blockReset_regWrites (s : State) : (blockReset s).regWrites = s.regWrites := rfl
@[simp] theorem blockReset_host (s : State) : (blockReset s).host = s.host := rfl
@[simp] theorem blockReset_turn (s : State) : (blockReset s).turn = s.turn := rfl
@[simp] theorem blockReset_sched (s : State) : (blockReset s).sched = s.sched := rfl
@[simp] theorem blockReset_tick (s : State) : (blockReset s).tick = s.tick := rfl
@[simp] theorem blockReset_draws (s : State) : (blockReset s).draws = s.draws + 1 := rfl

/-! `nextLine` -/

@[simp] theorem nextLine_board (s : State) : (nextLine s).board = s.board := rfl
@[simp] theorem nextLine_fsm (s : State) : (nextLine s).fsm = s.fsm := rfl
@[simp] theorem nextLine_busy (s : State) : (nextLine s).busy = s.busy := rfl
@[simp] theorem nextLine_cmdDone (s : State) : (nextLine s).cmdDone = s.cmdDone := rfl
@[simp] theorem nextLine_result (s : State) : (nextLine s).result = s.result := rfl
@[simp] theorem nextLine_fatal (s : State) : (nextLine s).fatal = s.fatal := rfl
@[simp] theorem nextLine_ovr (s : State) : (nextLine s).ovr = s.ovr := rfl
@[simp] theorem nextLine_stage (s : State) : (nextLine s).stage = s.stage := rfl
@[simp] theorem nextLine_amDone (s : State) : (nextLine s).amDone = s.amDone := rfl
@[simp] theorem nextLine_odtDone (s : State) : (nextLine s).odtDone = s.odtDone := rfl
@[simp] theorem nextLine_timDone (s : State) : (nextLine s).timDone = s.timDone := rfl
@[simp] theorem nextLine_attempts (s : State) : (nextLine s).attempts = s.attempts := rfl
@[simp] theorem nextLine_geom (s : State) : (nextLine s).geom = s.geom := rfl
@[simp] theorem nextLine_calBase (s : State) : (nextLine s).calBase = s.calBase := rfl
@[simp] theorem nextLine_ag (s : State) : (nextLine s).ag = s.ag := rfl
@[simp] theorem nextLine_agValid (s : State) : (nextLine s).agValid = s.agValid := rfl
@[simp] theorem nextLine_curCmd (s : State) : (nextLine s).curCmd = s.curCmd := rfl
@[simp] theorem nextLine_mrIdx (s : State) : (nextLine s).mrIdx = s.mrIdx := rfl
@[simp] theorem nextLine_pass (s : State) : (nextLine s).pass = s.pass := rfl
@[simp] theorem nextLine_att (s : State) : (nextLine s).att = s.att := rfl
@[simp] theorem nextLine_passOk (s : State) : (nextLine s).passOk = s.passOk := rfl
@[simp] theorem nextLine_sub (s : State) : (nextLine s).sub = s.sub := rfl
@[simp] theorem nextLine_opGeom (s : State) : (nextLine s).opGeom = s.opGeom := rfl
@[simp] theorem nextLine_phyStarted (s : State) : (nextLine s).phyStarted = s.phyStarted := rfl
@[simp] theorem nextLine_ccu (s : State) : (nextLine s).ccu = s.ccu := rfl
@[simp] theorem nextLine_pll (s : State) : (nextLine s).pll = s.pll := rfl
@[simp] theorem nextLine_ctl (s : State) : (nextLine s).ctl = s.ctl := rfl
@[simp] theorem nextLine_phy (s : State) : (nextLine s).phy = s.phy := rfl
@[simp] theorem nextLine_dram (s : State) : (nextLine s).dram = s.dram := rfl
@[simp] theorem nextLine_devMr (s : State) : (nextLine s).devMr = s.devMr := rfl
@[simp] theorem nextLine_regWrites (s : State) : (nextLine s).regWrites = s.regWrites := rfl
@[simp] theorem nextLine_host (s : State) : (nextLine s).host = { s.host with pc := s.host.pc + 1 } := rfl
@[simp] theorem nextLine_turn (s : State) : (nextLine s).turn = s.turn := rfl
@[simp] theorem nextLine_sched (s : State) : (nextLine s).sched = s.sched := rfl
@[simp] theorem nextLine_tick (s : State) : (nextLine s).tick = s.tick := rfl
@[simp] theorem nextLine_draws (s : State) : (nextLine s).draws = s.draws := rfl

/-! `jumpTo` -/

@[simp] theorem jumpTo_board (l : Nat) (s : State) : (jumpTo l s).board = s.board := rfl
@[simp] theorem jumpTo_fsm (l : Nat) (s : State) : (jumpTo l s).fsm = s.fsm := rfl
@[simp] theorem jumpTo_busy (l : Nat) (s : State) : (jumpTo l s).busy = s.busy := rfl
@[simp] theorem jumpTo_cmdDone (l : Nat) (s : State) : (jumpTo l s).cmdDone = s.cmdDone := rfl
@[simp] theorem jumpTo_result (l : Nat) (s : State) : (jumpTo l s).result = s.result := rfl
@[simp] theorem jumpTo_fatal (l : Nat) (s : State) : (jumpTo l s).fatal = s.fatal := rfl
@[simp] theorem jumpTo_ovr (l : Nat) (s : State) : (jumpTo l s).ovr = s.ovr := rfl
@[simp] theorem jumpTo_stage (l : Nat) (s : State) : (jumpTo l s).stage = s.stage := rfl
@[simp] theorem jumpTo_amDone (l : Nat) (s : State) : (jumpTo l s).amDone = s.amDone := rfl
@[simp] theorem jumpTo_odtDone (l : Nat) (s : State) : (jumpTo l s).odtDone = s.odtDone := rfl
@[simp] theorem jumpTo_timDone (l : Nat) (s : State) : (jumpTo l s).timDone = s.timDone := rfl
@[simp] theorem jumpTo_attempts (l : Nat) (s : State) : (jumpTo l s).attempts = s.attempts := rfl
@[simp] theorem jumpTo_geom (l : Nat) (s : State) : (jumpTo l s).geom = s.geom := rfl
@[simp] theorem jumpTo_calBase (l : Nat) (s : State) : (jumpTo l s).calBase = s.calBase := rfl
@[simp] theorem jumpTo_ag (l : Nat) (s : State) : (jumpTo l s).ag = s.ag := rfl
@[simp] theorem jumpTo_agValid (l : Nat) (s : State) : (jumpTo l s).agValid = s.agValid := rfl
@[simp] theorem jumpTo_curCmd (l : Nat) (s : State) : (jumpTo l s).curCmd = s.curCmd := rfl
@[simp] theorem jumpTo_mrIdx (l : Nat) (s : State) : (jumpTo l s).mrIdx = s.mrIdx := rfl
@[simp] theorem jumpTo_pass (l : Nat) (s : State) : (jumpTo l s).pass = s.pass := rfl
@[simp] theorem jumpTo_att (l : Nat) (s : State) : (jumpTo l s).att = s.att := rfl
@[simp] theorem jumpTo_passOk (l : Nat) (s : State) : (jumpTo l s).passOk = s.passOk := rfl
@[simp] theorem jumpTo_sub (l : Nat) (s : State) : (jumpTo l s).sub = s.sub := rfl
@[simp] theorem jumpTo_opGeom (l : Nat) (s : State) : (jumpTo l s).opGeom = s.opGeom := rfl
@[simp] theorem jumpTo_phyStarted (l : Nat) (s : State) : (jumpTo l s).phyStarted = s.phyStarted := rfl
@[simp] theorem jumpTo_ccu (l : Nat) (s : State) : (jumpTo l s).ccu = s.ccu := rfl
@[simp] theorem jumpTo_pll (l : Nat) (s : State) : (jumpTo l s).pll = s.pll := rfl
@[simp] theorem jumpTo_ctl (l : Nat) (s : State) : (jumpTo l s).ctl = s.ctl := rfl
@[simp] theorem jumpTo_phy (l : Nat) (s : State) : (jumpTo l s).phy = s.phy := rfl
@[simp] theorem jumpTo_dram (l : Nat) (s : State) : (jumpTo l s).dram = s.dram := rfl
@[simp] theorem jumpTo_devMr (l : Nat) (s : State) : (jumpTo l s).devMr = s.devMr := rfl
@[simp] theorem jumpTo_regWrites (l : Nat) (s : State) : (jumpTo l s).regWrites = s.regWrites := rfl
@[simp] theorem jumpTo_host (l : Nat) (s : State) : (jumpTo l s).host = { s.host with pc := l } := rfl
@[simp] theorem jumpTo_turn (l : Nat) (s : State) : (jumpTo l s).turn = s.turn := rfl
@[simp] theorem jumpTo_sched (l : Nat) (s : State) : (jumpTo l s).sched = s.sched := rfl
@[simp] theorem jumpTo_tick (l : Nat) (s : State) : (jumpTo l s).tick = s.tick := rfl
@[simp] theorem jumpTo_draws (l : Nat) (s : State) : (jumpTo l s).draws = s.draws := rfl

/-! `assignTemp` -/

@[simp] theorem assignTemp_board (t v : Nat) (s : State) : (assignTemp t v s).board = s.board := rfl
@[simp] theorem assignTemp_fsm (t v : Nat) (s : State) : (assignTemp t v s).fsm = s.fsm := rfl
@[simp] theorem assignTemp_busy (t v : Nat) (s : State) : (assignTemp t v s).busy = s.busy := rfl
@[simp] theorem assignTemp_cmdDone (t v : Nat) (s : State) : (assignTemp t v s).cmdDone = s.cmdDone := rfl
@[simp] theorem assignTemp_result (t v : Nat) (s : State) : (assignTemp t v s).result = s.result := rfl
@[simp] theorem assignTemp_fatal (t v : Nat) (s : State) : (assignTemp t v s).fatal = s.fatal := rfl
@[simp] theorem assignTemp_ovr (t v : Nat) (s : State) : (assignTemp t v s).ovr = s.ovr := rfl
@[simp] theorem assignTemp_stage (t v : Nat) (s : State) : (assignTemp t v s).stage = s.stage := rfl
@[simp] theorem assignTemp_amDone (t v : Nat) (s : State) : (assignTemp t v s).amDone = s.amDone := rfl
@[simp] theorem assignTemp_odtDone (t v : Nat) (s : State) : (assignTemp t v s).odtDone = s.odtDone := rfl
@[simp] theorem assignTemp_timDone (t v : Nat) (s : State) : (assignTemp t v s).timDone = s.timDone := rfl
@[simp] theorem assignTemp_attempts (t v : Nat) (s : State) : (assignTemp t v s).attempts = s.attempts := rfl
@[simp] theorem assignTemp_geom (t v : Nat) (s : State) : (assignTemp t v s).geom = s.geom := rfl
@[simp] theorem assignTemp_calBase (t v : Nat) (s : State) : (assignTemp t v s).calBase = s.calBase := rfl
@[simp] theorem assignTemp_ag (t v : Nat) (s : State) : (assignTemp t v s).ag = s.ag := rfl
@[simp] theorem assignTemp_agValid (t v : Nat) (s : State) : (assignTemp t v s).agValid = s.agValid := rfl
@[simp] theorem assignTemp_curCmd (t v : Nat) (s : State) : (assignTemp t v s).curCmd = s.curCmd := rfl
@[simp] theorem assignTemp_mrIdx (t v : Nat) (s : State) : (assignTemp t v s).mrIdx = s.mrIdx := rfl
@[simp] theorem assignTemp_pass (t v : Nat) (s : State) : (assignTemp t v s).pass = s.pass := rfl
@[simp] theorem assignTemp_att (t v : Nat) (s : State) : (assignTemp t v s).att = s.att := rfl
@[simp] theorem assignTemp_passOk (t v : Nat) (s : State) : (assignTemp t v s).passOk = s.passOk := rfl
@[simp] theorem assignTemp_sub (t v : Nat) (s : State) : (assignTemp t v s).sub = s.sub := rfl
@[simp] theorem assignTemp_opGeom (t v : Nat) (s : State) : (assignTemp t v s).opGeom = s.opGeom := rfl
@[simp] theorem assignTemp_phyStarted (t v : Nat) (s : State) : (assignTemp t v s).phyStarted = s.phyStarted := rfl
@[simp] theorem assignTemp_ccu (t v : Nat) (s : State) : (assignTemp t v s).ccu = s.ccu := rfl
@[simp] theorem assignTemp_pll (t v : Nat) (s : State) : (assignTemp t v s).pll = s.pll := rfl
@[simp] theorem assignTemp_ctl (t v : Nat) (s : State) : (assignTemp t v s).ctl = s.ctl := rfl
@[simp] theorem assignTemp_phy (t v : Nat) (s : State) : (assignTemp t v s).phy = s.phy := rfl
@[simp] theorem assignTemp_dram (t v : Nat) (s : State) : (assignTemp t v s).dram = s.dram := rfl
@[simp] theorem assignTemp_devMr (t v : Nat) (s : State) : (assignTemp t v s).devMr = s.devMr := rfl
@[simp] theorem assignTemp_regWrites (t v : Nat) (s : State) : (assignTemp t v s).regWrites = s.regWrites := rfl
@[simp] theorem assignTemp_host (t v : Nat) (s : State) : (assignTemp t v s).host = { s.host with temps := setTemp s.host.temps t v } := rfl
@[simp] theorem assignTemp_turn (t v : Nat) (s : State) : (assignTemp t v s).turn = s.turn := rfl
@[simp] theorem assignTemp_sched (t v : Nat) (s : State) : (assignTemp t v s).sched = s.sched := rfl
@[simp] theorem assignTemp_tick (t v : Nat) (s : State) : (assignTemp t v s).tick = s.tick := rfl
@[simp] theorem assignTemp_draws (t v : Nat) (s : State) : (assignTemp t v s).draws = s.draws := rfl

/-! `passTurn`: it changes whose move it is and nothing else. -/

@[simp] theorem passTurn_board (s : State) : (passTurn s).board = s.board := by
  unfold passTurn; split <;> rfl
@[simp] theorem passTurn_fsm (s : State) : (passTurn s).fsm = s.fsm := by
  unfold passTurn; split <;> rfl
@[simp] theorem passTurn_busy (s : State) : (passTurn s).busy = s.busy := by
  unfold passTurn; split <;> rfl
@[simp] theorem passTurn_cmdDone (s : State) : (passTurn s).cmdDone = s.cmdDone := by
  unfold passTurn; split <;> rfl
@[simp] theorem passTurn_result (s : State) : (passTurn s).result = s.result := by
  unfold passTurn; split <;> rfl
@[simp] theorem passTurn_fatal (s : State) : (passTurn s).fatal = s.fatal := by
  unfold passTurn; split <;> rfl
@[simp] theorem passTurn_ovr (s : State) : (passTurn s).ovr = s.ovr := by
  unfold passTurn; split <;> rfl
@[simp] theorem passTurn_stage (s : State) : (passTurn s).stage = s.stage := by
  unfold passTurn; split <;> rfl
@[simp] theorem passTurn_amDone (s : State) : (passTurn s).amDone = s.amDone := by
  unfold passTurn; split <;> rfl
@[simp] theorem passTurn_odtDone (s : State) : (passTurn s).odtDone = s.odtDone := by
  unfold passTurn; split <;> rfl
@[simp] theorem passTurn_timDone (s : State) : (passTurn s).timDone = s.timDone := by
  unfold passTurn; split <;> rfl
@[simp] theorem passTurn_attempts (s : State) : (passTurn s).attempts = s.attempts := by
  unfold passTurn; split <;> rfl
@[simp] theorem passTurn_geom (s : State) : (passTurn s).geom = s.geom := by
  unfold passTurn; split <;> rfl
@[simp] theorem passTurn_calBase (s : State) : (passTurn s).calBase = s.calBase := by
  unfold passTurn; split <;> rfl
@[simp] theorem passTurn_ag (s : State) : (passTurn s).ag = s.ag := by
  unfold passTurn; split <;> rfl
@[simp] theorem passTurn_agValid (s : State) : (passTurn s).agValid = s.agValid := by
  unfold passTurn; split <;> rfl
@[simp] theorem passTurn_curCmd (s : State) : (passTurn s).curCmd = s.curCmd := by
  unfold passTurn; split <;> rfl
@[simp] theorem passTurn_mrIdx (s : State) : (passTurn s).mrIdx = s.mrIdx := by
  unfold passTurn; split <;> rfl
@[simp] theorem passTurn_pass (s : State) : (passTurn s).pass = s.pass := by
  unfold passTurn; split <;> rfl
@[simp] theorem passTurn_att (s : State) : (passTurn s).att = s.att := by
  unfold passTurn; split <;> rfl
@[simp] theorem passTurn_passOk (s : State) : (passTurn s).passOk = s.passOk := by
  unfold passTurn; split <;> rfl
@[simp] theorem passTurn_sub (s : State) : (passTurn s).sub = s.sub := by
  unfold passTurn; split <;> rfl
@[simp] theorem passTurn_opGeom (s : State) : (passTurn s).opGeom = s.opGeom := by
  unfold passTurn; split <;> rfl
@[simp] theorem passTurn_phyStarted (s : State) : (passTurn s).phyStarted = s.phyStarted := by
  unfold passTurn; split <;> rfl
@[simp] theorem passTurn_ccu (s : State) : (passTurn s).ccu = s.ccu := by
  unfold passTurn; split <;> rfl
@[simp] theorem passTurn_pll (s : State) : (passTurn s).pll = s.pll := by
  unfold passTurn; split <;> rfl
@[simp] theorem passTurn_ctl (s : State) : (passTurn s).ctl = s.ctl := by
  unfold passTurn; split <;> rfl
@[simp] theorem passTurn_phy (s : State) : (passTurn s).phy = s.phy := by
  unfold passTurn; split <;> rfl
@[simp] theorem passTurn_dram (s : State) : (passTurn s).dram = s.dram := by
  unfold passTurn; split <;> rfl
@[simp] theorem passTurn_devMr (s : State) : (passTurn s).devMr = s.devMr := by
  unfold passTurn; split <;> rfl
@[simp] theorem passTurn_regWrites (s : State) : (passTurn s).regWrites = s.regWrites := by
  unfold passTurn; split <;> rfl
@[simp] theorem passTurn_host (s : State) : (passTurn s).host = s.host := by
  unfold passTurn; split <;> rfl
@[simp] theorem passTurn_draws (s : State) : (passTurn s).draws = s.draws := by
  unfold passTurn; split <;> rfl

/-! `dramWriteByte` and `memWrite`: they change the device's cells and nothing else. -/

@[simp] theorem dramWriteByte_board (s : State) (a : Nat) (b : Byte) : (dramWriteByte s a b).board = s.board := by
  unfold dramWriteByte; split <;> rfl
@[simp] theorem dramWriteByte_fsm (s : State) (a : Nat) (b : Byte) : (dramWriteByte s a b).fsm = s.fsm := by
  unfold dramWriteByte; split <;> rfl
@[simp] theorem dramWriteByte_busy (s : State) (a : Nat) (b : Byte) : (dramWriteByte s a b).busy = s.busy := by
  unfold dramWriteByte; split <;> rfl
@[simp] theorem dramWriteByte_cmdDone (s : State) (a : Nat) (b : Byte) : (dramWriteByte s a b).cmdDone = s.cmdDone := by
  unfold dramWriteByte; split <;> rfl
@[simp] theorem dramWriteByte_result (s : State) (a : Nat) (b : Byte) : (dramWriteByte s a b).result = s.result := by
  unfold dramWriteByte; split <;> rfl
@[simp] theorem dramWriteByte_fatal (s : State) (a : Nat) (b : Byte) : (dramWriteByte s a b).fatal = s.fatal := by
  unfold dramWriteByte; split <;> rfl
@[simp] theorem dramWriteByte_ovr (s : State) (a : Nat) (b : Byte) : (dramWriteByte s a b).ovr = s.ovr := by
  unfold dramWriteByte; split <;> rfl
@[simp] theorem dramWriteByte_stage (s : State) (a : Nat) (b : Byte) : (dramWriteByte s a b).stage = s.stage := by
  unfold dramWriteByte; split <;> rfl
@[simp] theorem dramWriteByte_amDone (s : State) (a : Nat) (b : Byte) : (dramWriteByte s a b).amDone = s.amDone := by
  unfold dramWriteByte; split <;> rfl
@[simp] theorem dramWriteByte_odtDone (s : State) (a : Nat) (b : Byte) : (dramWriteByte s a b).odtDone = s.odtDone := by
  unfold dramWriteByte; split <;> rfl
@[simp] theorem dramWriteByte_timDone (s : State) (a : Nat) (b : Byte) : (dramWriteByte s a b).timDone = s.timDone := by
  unfold dramWriteByte; split <;> rfl
@[simp] theorem dramWriteByte_attempts (s : State) (a : Nat) (b : Byte) : (dramWriteByte s a b).attempts = s.attempts := by
  unfold dramWriteByte; split <;> rfl
@[simp] theorem dramWriteByte_geom (s : State) (a : Nat) (b : Byte) : (dramWriteByte s a b).geom = s.geom := by
  unfold dramWriteByte; split <;> rfl
@[simp] theorem dramWriteByte_calBase (s : State) (a : Nat) (b : Byte) : (dramWriteByte s a b).calBase = s.calBase := by
  unfold dramWriteByte; split <;> rfl
@[simp] theorem dramWriteByte_ag (s : State) (a : Nat) (b : Byte) : (dramWriteByte s a b).ag = s.ag := by
  unfold dramWriteByte; split <;> rfl
@[simp] theorem dramWriteByte_agValid (s : State) (a : Nat) (b : Byte) : (dramWriteByte s a b).agValid = s.agValid := by
  unfold dramWriteByte; split <;> rfl
@[simp] theorem dramWriteByte_curCmd (s : State) (a : Nat) (b : Byte) : (dramWriteByte s a b).curCmd = s.curCmd := by
  unfold dramWriteByte; split <;> rfl
@[simp] theorem dramWriteByte_mrIdx (s : State) (a : Nat) (b : Byte) : (dramWriteByte s a b).mrIdx = s.mrIdx := by
  unfold dramWriteByte; split <;> rfl
@[simp] theorem dramWriteByte_pass (s : State) (a : Nat) (b : Byte) : (dramWriteByte s a b).pass = s.pass := by
  unfold dramWriteByte; split <;> rfl
@[simp] theorem dramWriteByte_att (s : State) (a : Nat) (b : Byte) : (dramWriteByte s a b).att = s.att := by
  unfold dramWriteByte; split <;> rfl
@[simp] theorem dramWriteByte_passOk (s : State) (a : Nat) (b : Byte) : (dramWriteByte s a b).passOk = s.passOk := by
  unfold dramWriteByte; split <;> rfl
@[simp] theorem dramWriteByte_sub (s : State) (a : Nat) (b : Byte) : (dramWriteByte s a b).sub = s.sub := by
  unfold dramWriteByte; split <;> rfl
@[simp] theorem dramWriteByte_opGeom (s : State) (a : Nat) (b : Byte) : (dramWriteByte s a b).opGeom = s.opGeom := by
  unfold dramWriteByte; split <;> rfl
@[simp] theorem dramWriteByte_phyStarted (s : State) (a : Nat) (b : Byte) : (dramWriteByte s a b).phyStarted = s.phyStarted := by
  unfold dramWriteByte; split <;> rfl
@[simp] theorem dramWriteByte_ccu (s : State) (a : Nat) (b : Byte) : (dramWriteByte s a b).ccu = s.ccu := by
  unfold dramWriteByte; split <;> rfl
@[simp] theorem dramWriteByte_pll (s : State) (a : Nat) (b : Byte) : (dramWriteByte s a b).pll = s.pll := by
  unfold dramWriteByte; split <;> rfl
@[simp] theorem dramWriteByte_ctl (s : State) (a : Nat) (b : Byte) : (dramWriteByte s a b).ctl = s.ctl := by
  unfold dramWriteByte; split <;> rfl
@[simp] theorem dramWriteByte_phy (s : State) (a : Nat) (b : Byte) : (dramWriteByte s a b).phy = s.phy := by
  unfold dramWriteByte; split <;> rfl
@[simp] theorem dramWriteByte_devMr (s : State) (a : Nat) (b : Byte) : (dramWriteByte s a b).devMr = s.devMr := by
  unfold dramWriteByte; split <;> rfl
@[simp] theorem dramWriteByte_regWrites (s : State) (a : Nat) (b : Byte) : (dramWriteByte s a b).regWrites = s.regWrites := by
  unfold dramWriteByte; split <;> rfl
@[simp] theorem dramWriteByte_host (s : State) (a : Nat) (b : Byte) : (dramWriteByte s a b).host = s.host := by
  unfold dramWriteByte; split <;> rfl
@[simp] theorem dramWriteByte_turn (s : State) (a : Nat) (b : Byte) : (dramWriteByte s a b).turn = s.turn := by
  unfold dramWriteByte; split <;> rfl
@[simp] theorem dramWriteByte_sched (s : State) (a : Nat) (b : Byte) : (dramWriteByte s a b).sched = s.sched := by
  unfold dramWriteByte; split <;> rfl
@[simp] theorem dramWriteByte_tick (s : State) (a : Nat) (b : Byte) : (dramWriteByte s a b).tick = s.tick := by
  unfold dramWriteByte; split <;> rfl
@[simp] theorem dramWriteByte_draws (s : State) (a : Nat) (b : Byte) : (dramWriteByte s a b).draws = s.draws := by
  unfold dramWriteByte; split <;> rfl

@[simp] theorem memWrite_board (s : State) (off n v : Nat) : (memWrite s off n v).board = s.board := by
  induction n with
  | zero => rfl
  | succ k ih => simp [memWrite, ih]
@[simp] theorem memWrite_fsm (s : State) (off n v : Nat) : (memWrite s off n v).fsm = s.fsm := by
  induction n with
  | zero => rfl
  | succ k ih => simp [memWrite, ih]
@[simp] theorem memWrite_busy (s : State) (off n v : Nat) : (memWrite s off n v).busy = s.busy := by
  induction n with
  | zero => rfl
  | succ k ih => simp [memWrite, ih]
@[simp] theorem memWrite_cmdDone (s : State) (off n v : Nat) : (memWrite s off n v).cmdDone = s.cmdDone := by
  induction n with
  | zero => rfl
  | succ k ih => simp [memWrite, ih]
@[simp] theorem memWrite_result (s : State) (off n v : Nat) : (memWrite s off n v).result = s.result := by
  induction n with
  | zero => rfl
  | succ k ih => simp [memWrite, ih]
@[simp] theorem memWrite_fatal (s : State) (off n v : Nat) : (memWrite s off n v).fatal = s.fatal := by
  induction n with
  | zero => rfl
  | succ k ih => simp [memWrite, ih]
@[simp] theorem memWrite_ovr (s : State) (off n v : Nat) : (memWrite s off n v).ovr = s.ovr := by
  induction n with
  | zero => rfl
  | succ k ih => simp [memWrite, ih]
@[simp] theorem memWrite_stage (s : State) (off n v : Nat) : (memWrite s off n v).stage = s.stage := by
  induction n with
  | zero => rfl
  | succ k ih => simp [memWrite, ih]
@[simp] theorem memWrite_amDone (s : State) (off n v : Nat) : (memWrite s off n v).amDone = s.amDone := by
  induction n with
  | zero => rfl
  | succ k ih => simp [memWrite, ih]
@[simp] theorem memWrite_odtDone (s : State) (off n v : Nat) : (memWrite s off n v).odtDone = s.odtDone := by
  induction n with
  | zero => rfl
  | succ k ih => simp [memWrite, ih]
@[simp] theorem memWrite_timDone (s : State) (off n v : Nat) : (memWrite s off n v).timDone = s.timDone := by
  induction n with
  | zero => rfl
  | succ k ih => simp [memWrite, ih]
@[simp] theorem memWrite_attempts (s : State) (off n v : Nat) : (memWrite s off n v).attempts = s.attempts := by
  induction n with
  | zero => rfl
  | succ k ih => simp [memWrite, ih]
@[simp] theorem memWrite_geom (s : State) (off n v : Nat) : (memWrite s off n v).geom = s.geom := by
  induction n with
  | zero => rfl
  | succ k ih => simp [memWrite, ih]
@[simp] theorem memWrite_calBase (s : State) (off n v : Nat) : (memWrite s off n v).calBase = s.calBase := by
  induction n with
  | zero => rfl
  | succ k ih => simp [memWrite, ih]
@[simp] theorem memWrite_ag (s : State) (off n v : Nat) : (memWrite s off n v).ag = s.ag := by
  induction n with
  | zero => rfl
  | succ k ih => simp [memWrite, ih]
@[simp] theorem memWrite_agValid (s : State) (off n v : Nat) : (memWrite s off n v).agValid = s.agValid := by
  induction n with
  | zero => rfl
  | succ k ih => simp [memWrite, ih]
@[simp] theorem memWrite_curCmd (s : State) (off n v : Nat) : (memWrite s off n v).curCmd = s.curCmd := by
  induction n with
  | zero => rfl
  | succ k ih => simp [memWrite, ih]
@[simp] theorem memWrite_mrIdx (s : State) (off n v : Nat) : (memWrite s off n v).mrIdx = s.mrIdx := by
  induction n with
  | zero => rfl
  | succ k ih => simp [memWrite, ih]
@[simp] theorem memWrite_pass (s : State) (off n v : Nat) : (memWrite s off n v).pass = s.pass := by
  induction n with
  | zero => rfl
  | succ k ih => simp [memWrite, ih]
@[simp] theorem memWrite_att (s : State) (off n v : Nat) : (memWrite s off n v).att = s.att := by
  induction n with
  | zero => rfl
  | succ k ih => simp [memWrite, ih]
@[simp] theorem memWrite_passOk (s : State) (off n v : Nat) : (memWrite s off n v).passOk = s.passOk := by
  induction n with
  | zero => rfl
  | succ k ih => simp [memWrite, ih]
@[simp] theorem memWrite_sub (s : State) (off n v : Nat) : (memWrite s off n v).sub = s.sub := by
  induction n with
  | zero => rfl
  | succ k ih => simp [memWrite, ih]
@[simp] theorem memWrite_opGeom (s : State) (off n v : Nat) : (memWrite s off n v).opGeom = s.opGeom := by
  induction n with
  | zero => rfl
  | succ k ih => simp [memWrite, ih]
@[simp] theorem memWrite_phyStarted (s : State) (off n v : Nat) : (memWrite s off n v).phyStarted = s.phyStarted := by
  induction n with
  | zero => rfl
  | succ k ih => simp [memWrite, ih]
@[simp] theorem memWrite_ccu (s : State) (off n v : Nat) : (memWrite s off n v).ccu = s.ccu := by
  induction n with
  | zero => rfl
  | succ k ih => simp [memWrite, ih]
@[simp] theorem memWrite_pll (s : State) (off n v : Nat) : (memWrite s off n v).pll = s.pll := by
  induction n with
  | zero => rfl
  | succ k ih => simp [memWrite, ih]
@[simp] theorem memWrite_ctl (s : State) (off n v : Nat) : (memWrite s off n v).ctl = s.ctl := by
  induction n with
  | zero => rfl
  | succ k ih => simp [memWrite, ih]
@[simp] theorem memWrite_phy (s : State) (off n v : Nat) : (memWrite s off n v).phy = s.phy := by
  induction n with
  | zero => rfl
  | succ k ih => simp [memWrite, ih]
@[simp] theorem memWrite_devMr (s : State) (off n v : Nat) : (memWrite s off n v).devMr = s.devMr := by
  induction n with
  | zero => rfl
  | succ k ih => simp [memWrite, ih]
@[simp] theorem memWrite_regWrites (s : State) (off n v : Nat) : (memWrite s off n v).regWrites = s.regWrites := by
  induction n with
  | zero => rfl
  | succ k ih => simp [memWrite, ih]
@[simp] theorem memWrite_host (s : State) (off n v : Nat) : (memWrite s off n v).host = s.host := by
  induction n with
  | zero => rfl
  | succ k ih => simp [memWrite, ih]
@[simp] theorem memWrite_turn (s : State) (off n v : Nat) : (memWrite s off n v).turn = s.turn := by
  induction n with
  | zero => rfl
  | succ k ih => simp [memWrite, ih]
@[simp] theorem memWrite_sched (s : State) (off n v : Nat) : (memWrite s off n v).sched = s.sched := by
  induction n with
  | zero => rfl
  | succ k ih => simp [memWrite, ih]
@[simp] theorem memWrite_tick (s : State) (off n v : Nat) : (memWrite s off n v).tick = s.tick := by
  induction n with
  | zero => rfl
  | succ k ih => simp [memWrite, ih]
@[simp] theorem memWrite_draws (s : State) (off n v : Nat) : (memWrite s off n v).draws = s.draws := by
  induction n with
  | zero => rfl
  | succ k ih => simp [memWrite, ih]

end Sys2Proof.Machine
end

