-- ==== Sys2Proof/Laws/Memory.lean ====
section
/-! SUPPORT. Memory: reading after writing, and the canonical form that every operation keeps. -/

namespace Sys2Proof.Machine

theorem Memory.get_set_same (m : Memory) (a : Nat) (b : Byte) : Memory.get (Memory.set m a b) a = some b := by
  induction m with
  | nil => simp [Memory.set, Memory.get]
  | cons x rest ih =>
    obtain ⟨k, v⟩ := x
    simp only [Memory.set]
    split
    · simp [Memory.get]
    · split
      · simp [Memory.get]
      · rename_i h1 h2
        have : k ≠ a := fun h => h2 h.symm
        simp [Memory.get, this, ih]

theorem Memory.get_set_other (m : Memory) {a c : Nat} (b : Byte) (h : c ≠ a) :
    Memory.get (Memory.set m a b) c = Memory.get m c := by
  have h' : a ≠ c := fun e => h e.symm
  induction m with
  | nil => simp [Memory.set, Memory.get, h']
  | cons x rest ih =>
    obtain ⟨k, v⟩ := x
    simp only [Memory.set]
    split
    · simp [Memory.get, h']
    · split
      · rename_i h1 h2
        subst h2
        simp [Memory.get, h']
      · simp only [Memory.get]; rw [ih]

theorem Memory.mem_set {m : Memory} {a : Nat} {b : Byte} {x : Host.Cell} (h : x ∈ Memory.set m a b) :
    x = (a, b) ∨ x ∈ m := by
  induction m with
  | nil => simpa [Memory.set] using h
  | cons y rest ih =>
    obtain ⟨k, v⟩ := y
    simp only [Memory.set] at h
    split at h
    · simpa using h
    · split at h
      · rcases List.mem_cons.mp h with h | h
        · exact .inl h
        · exact .inr (List.mem_cons_of_mem _ h)
      · rcases List.mem_cons.mp h with h | h
        · exact .inr (h ▸ List.mem_cons_self ..)
        · rcases ih h with h | h
          · exact .inl h
          · exact .inr (List.mem_cons_of_mem _ h)

/-- A write keeps the canonical form. -/
theorem Memory.wf_set (m : Memory) (a : Nat) (b : Byte) (h : Memory.wf m) : Memory.wf (Memory.set m a b) := by
  induction m with
  | nil => simp [Memory.set, Memory.wf]
  | cons y rest ih =>
    obtain ⟨k, v⟩ := y
    have hk : ∀ x ∈ rest, k < x.1 := (List.pairwise_cons.mp h).1
    have hr : Memory.wf rest := (List.pairwise_cons.mp h).2
    simp only [Memory.set]
    split
    · rename_i hlt
      refine List.pairwise_cons.mpr ⟨?_, h⟩
      intro x hx
      rcases List.mem_cons.mp hx with rfl | hx
      · exact hlt
      · exact Nat.lt_trans hlt (hk x hx)
    · split
      · rename_i heq
        exact List.pairwise_cons.mpr ⟨fun x hx => heq ▸ hk x hx, hr⟩
      · rename_i h1 h2
        refine List.pairwise_cons.mpr ⟨?_, ih hr⟩
        intro x hx
        rcases Memory.mem_set hx with rfl | hx
        · exact Nat.lt_of_le_of_ne (Nat.le_of_not_lt h1) (fun e => h2 e.symm)
        · exact hk x hx

theorem dramWriteByte_wf (s : State) (a : Nat) (b : Byte) (h : Memory.wf s.dram) :
    Memory.wf (dramWriteByte s a b).dram := by
  unfold dramWriteByte
  split
  · exact Memory.wf_set _ _ _ h
  · exact h

/-- A DRAM write of any width keeps the canonical form. -/
theorem memWrite_wf (s : State) (off n v : Nat) (h : Memory.wf s.dram) : Memory.wf (memWrite s off n v).dram := by
  induction n with
  | zero => exact h
  | succ k ih => exact dramWriteByte_wf _ _ _ ih

/-- The reset memory is canonical. -/
theorem reset_memory_wf : Memory.wf State.reset.dram := List.Pairwise.nil

/-- The cell of an offset depends on the board, the address map and AG alone. -/
theorem cellOf_congr {s t : State} (hb : t.board = s.board) (hm : t.ctl.addrmap = s.ctl.addrmap) (hg : t.ag = s.ag)
    (a : Nat) : cellOf t a = cellOf s a := by
  unfold cellOf; rw [hb, hm, hg]

@[simp] theorem cellOf_memWrite (s : State) (off n v a : Nat) : cellOf (memWrite s off n v) a = cellOf s a :=
  cellOf_congr (by simp) (by simp) (by simp) a

@[simp] theorem cellOf_dramWriteByte (s : State) (a : Nat) (b : Byte) (c : Nat) :
    cellOf (dramWriteByte s a b) c = cellOf s c :=
  cellOf_congr (by simp) (by simp) (by simp) c

/-- After a byte is written to a cell, every offset that reaches that cell reads it (R79). -/
theorem dramStored_writeByte_same (s : State) {a c k : Nat} (b : Byte) (ha : cellOf s a = some k)
    (hc : cellOf s c = some k) : dramStored (dramWriteByte s a b) c = some b := by
  unfold dramStored
  rw [cellOf_dramWriteByte, hc]
  simp [dramWriteByte, ha, Memory.get_set_same]

/-- A byte write leaves what every offset of another cell reads (R79). -/
theorem dramStored_writeByte_other (s : State) {a c : Nat} (b : Byte) (h : cellOf s c ≠ cellOf s a) :
    dramStored (dramWriteByte s a b) c = dramStored s c := by
  unfold dramStored
  rw [cellOf_dramWriteByte]
  cases hc : cellOf s c with
  | none => rfl
  | some k =>
    simp only [dramWriteByte]
    cases ha : cellOf s a with
    | none => rfl
    | some j =>
      have : k ≠ j := fun e => h (by rw [hc, ha, e])
      simp [Memory.get_set_other _ _ this]

/-- A write leaves what every offset outside its cells reads (R79). -/
theorem dramStored_memWrite_other (s : State) (off n v c : Nat)
    (h : ∀ i, i < n → cellOf s c ≠ cellOf s (off + i)) :
    dramStored (memWrite s off n v) c = dramStored s c := by
  induction n with
  | zero => rfl
  | succ k ih =>
    simp only [memWrite]
    rw [dramStored_writeByte_other _ _ (by simpa using h k (Nat.lt_succ_self k))]
    exact ih (fun i hi => h i (Nat.lt_succ_of_lt hi))

end Sys2Proof.Machine
end

