-- ==== Sys2Proof/Laws/Ops.lean ====
section
/-! SUPPORT. One lemma per shared operation that says once everything it can do: an instruction in either agent's
hands, the issue, a line of the host, a step of each agent. -/

namespace Sys2Proof.Machine

/-! ## An instruction -/

/-- On the sequencer's turn an instruction is its micro-step, an end being the command's end (R22, R314). -/
theorem exec_sequencer (i : Instr) (s : State) (hi : i ≠ .bringup) (h : s.turn = .sequencer) :
    exec i s = .next (microAlone (subMicro i s)) := by
  cases i <;> first
    | exact absurd rfl hi
    | simp only [exec, execClkInit, execCfgOdt, execCfgAddrmap, execCfgTiming, execPhyInit, execDfiInit, execRdCal,
        runCommand, h, subMicro]

/-- On the sequencer's turn BRINGUP is its micro-step (R270). -/
theorem exec_bringup_sequencer (s : State) (h : s.turn = .sequencer) :
    exec .bringup s = .next (microAlone (bringupMicro s)) := by
  simp only [exec, execBringup, runCommand, h]

/-- In any other agent's hands an instruction is its issue (R313). -/
theorem exec_issue (i : Instr) (s : State) (h : s.turn ≠ .sequencer) : exec i s = .next (issue i s) := by
  cases i <;> simp only [exec, execClkInit, execCfgOdt, execCfgAddrmap, execCfgTiming, execPhyInit, execDfiInit,
    execRdCal, execBringup, runCommand]

/-- A meaning always answers a next state. -/
theorem exec_next (i : Instr) (s : State) : ∃ t, exec i s = .next t := by
  by_cases h : s.turn = .sequencer
  · by_cases hi : i = .bringup
    · exact ⟨_, hi ▸ exec_bringup_sequencer s h⟩
    · exact ⟨_, exec_sequencer i s hi h⟩
  · exact ⟨_, exec_issue i s h⟩

/-- Everything an issue can do (R313). -/
theorem issue_cases (i : Instr) (s : State) :
    (s.fatal = true ∧ issue i s = s)
    ∨ (s.fatal = false ∧ s.busy = true ∧ issue i s = { s with ovr := true })
    ∨ (s.fatal = false ∧ s.busy = false ∧ precondition i s = true
        ∧ issue i s = startCommand i (accept i.opcode s))
    ∨ (s.fatal = false ∧ s.busy = false ∧ precondition i s = false
        ∧ issue i s = endCmd .seqError (accept i.opcode s)) := by
  unfold issue
  cases s.fatal <;> cases s.busy <;> cases precondition i s <;> simp

/-- What an issue can change: STATUS fields, CUR_CMD, FSM, SUB and the operand latch (R313). -/
theorem issue_eq (i : Instr) (s : State) :
    issue i s = { s with
      busy := (issue i s).busy, cmdDone := (issue i s).cmdDone, result := (issue i s).result, ovr := (issue i s).ovr
      curCmd := (issue i s).curCmd, fsm := (issue i s).fsm, opGeom := (issue i s).opGeom, sub := (issue i s).sub } := by
  rcases issue_cases i s with ⟨-, h⟩ | ⟨-, -, h⟩ | ⟨-, -, -, h⟩ | ⟨-, -, -, h⟩ <;> rw [h] <;> rfl

/-- Everything the write of an illegal word can do (R313). -/
theorem issueIllegal_cases (w : Word) (s : State) :
    (s.fatal = true ∧ issueIllegal w s = s)
    ∨ (s.fatal = false ∧ s.busy = true ∧ issueIllegal w s = { s with ovr := true })
    ∨ (s.fatal = false ∧ s.busy = false ∧ issueIllegal w s = endCmd .illegalCmd (accept (opcField w) s)) := by
  unfold issueIllegal
  cases s.fatal <;> cases s.busy <;> simp

/-- Everything a write to CMD can do on the host's turn (R313). -/
theorem writeCmd_cases (w : Word) (s : State) (h : s.turn = .host) :
    (∃ i, decode w = .ok i ∧ writeCmd w s = .next (issue i s))
    ∨ (∃ e, decode w = .error e ∧ writeCmd w s = .next (issueIllegal w s)) := by
  unfold writeCmd
  cases hd : decode w with
  | ok i => exact .inl ⟨i, rfl, exec_issue i s (by simp [h])⟩
  | error e => exact .inr ⟨e, rfl, rfl⟩

/-- A micro-step's answer as a state. -/
theorem microAlone_go (t : State) : microAlone (.go t) = t := rfl

theorem microAlone_fin (r : Result) (t : State) : microAlone (.fin r t) = endCmd r t := rfl

@[simp] theorem microAlone_ite (c : Prop) [Decidable c] (a b : MicroOut) :
    microAlone (if c then a else b) = if c then microAlone a else microAlone b := by
  split <;> rfl

theorem microAlone_goTo (m : Micro) (t : State) : microAlone (goTo m t) = { t with fsm := m } := rfl

/-- What no micro-step touches: GEOM, OVR, CUR_CMD, SUB, the operand latch, BUSY, DONE and RESULT, the board, the host
and the turns (R22, R28, R42). -/
theorem subMicro_keeps {i : Instr} {s t : State} (h : subMicro i s = .go t ∨ ∃ r, subMicro i s = .fin r t) :
    t.geom = s.geom ∧ t.ovr = s.ovr ∧ t.curCmd = s.curCmd ∧ t.sub = s.sub ∧ t.opGeom = s.opGeom ∧ t.busy = s.busy
      ∧ t.cmdDone = s.cmdDone ∧ t.result = s.result ∧ t.board = s.board ∧ t.host = s.host ∧ t.turn = s.turn
      ∧ t.sched = s.sched ∧ t.tick = s.tick := by
  cases i <;> simp only [subMicro, clkInitMicro, cfgOdtMicro, cfgAddrmapMicro, cfgTimingMicro, phyInitMicro,
    dfiInitMicro, rdCalMicro, goTo] at h
  all_goals
    repeat' split at h
    all_goals
      rcases h with h | ⟨r, h⟩ <;> cases h
      all_goals exact ⟨rfl, rfl, rfl, rfl, rfl, rfl, rfl, rfl, rfl, rfl, rfl, rfl, rfl⟩

/-- A micro-step of a command's own, that goes on, stays in that command (R108). -/
theorem subMicro_go_owner {i : Instr} {s t : State} (ho : microOwner s.fsm = some i) (h : subMicro i s = .go t) :
    microOwner t.fsm = some i := by
  cases hf : s.fsm <;> rw [hf] at ho <;> cases ho <;>
    simp only [subMicro, clkInitMicro, cfgOdtMicro, cfgAddrmapMicro, cfgTimingMicro, phyInitMicro, dfiInitMicro,
      rdCalMicro, goTo, hf] at h <;>
    (repeat' split at h) <;> cases h <;> first | rfl | simp [microOwner, hf]

/-- Outside the first micro-step of a sub-command BRINGUP reads no operand (R355). -/
theorem readOperand_of_ne {i : Instr} {s : State} (h : s.fsm ≠ firstMicro i) : readOperand i s = s := by
  simp [readOperand, h]

/-- Everything a BRINGUP micro-step can do (R270, R272). -/
theorem bringupMicro_cases (s : State) (i : Instr) (hi : subCommands[s.sub]? = some i) :
    (∃ t, subMicro i (readOperand i s) = .go t ∧ bringupMicro s = .go t)
    ∨ (∃ r t, subMicro i (readOperand i s) = .fin r t ∧ r ≠ .ok ∧ bringupMicro s = .fin r t)
    ∨ (∃ t, subMicro i (readOperand i s) = .fin .ok t ∧ subCommands[s.sub + 1]? = none ∧ bringupMicro s = .fin .ok t)
    ∨ (∃ t j, subMicro i (readOperand i s) = .fin .ok t ∧ subCommands[s.sub + 1]? = some j
        ∧ bringupMicro s = .go (startSub (s.sub + 1) j t)) := by
  unfold bringupMicro
  rw [hi]
  dsimp only
  cases hm : subMicro i (readOperand i s) with
  | go t => exact .inl ⟨t, rfl, rfl⟩
  | fin r t =>
    cases r with
    | ok =>
      cases hn : subCommands[s.sub + 1]? with
      | none => exact .inr (.inr (.inl ⟨t, rfl, rfl, rfl⟩))
      | some j => exact .inr (.inr (.inr ⟨t, j, rfl, rfl, rfl⟩))
    | _ => exact .inr (.inl ⟨_, t, rfl, by simp, rfl⟩)

/-! ## The host's accesses -/

/-- The two answers of a block-window access check (R71, R72). -/
theorem windowAccessOk_iff (n : Nat) (off : BitVec 8) : windowAccessOk n off = true ↔ n = 4 ∧ off.toNat % 4 = 0 := by
  simp [windowAccessOk]

/-- When a DRAM access is admitted (R74 to R76). -/
theorem dramCheck_none {s : State} {off n : Nat} (h : dramCheck s off n = none) :
    (n = 1 ∨ n = 2 ∨ n = 4 ∨ n = 8) ∧ off % n = 0 ∧ s.stage = .operational
      ∧ off + n ≤ capacity (geomFields s.ag) ∧ off + n ≤ s.board.dramWindow := by
  unfold dramCheck at h
  split at h
  · cases h
  · split at h
    · cases h
    · split at h
      · cases h
      · rename_i h1 h2 h3
        push Not at h1 h2 h3
        exact ⟨h1.1, h1.2, h2, h3.1, h3.2⟩

/-- What a DRAM write changes (R73). -/
theorem memWrite_eq (s : State) (off n v : Nat) : memWrite s off n v = { s with dram := (memWrite s off n v).dram } := by
  induction n with
  | zero => rfl
  | succ k ih =>
    simp only [memWrite]
    generalize memWrite s off k v = u at ih ⊢
    unfold dramWriteByte
    split
    · rw [ih]
    · exact ih

/-- Everything a host line can do to the state: an access fault, a CMD write, a GEOM write, a DRAM write, or a line
that touches the host (and the draws) alone. -/
theorem hostLine_cases (l : HostLine) (s : State) (hs : s.turn = .host) :
    (∃ f, hostLine l s = .fault f)
    ∨ (∃ i, hostLine l s = .next (nextLine (issue i s)))
    ∨ (∃ w, hostLine l s = .next (nextLine (issueIllegal w s)))
    ∨ (∃ x, hostLine l s = .next (nextLine { s with geom := x }))
    ∨ (∃ off n v, dramCheck s off n = none ∧ hostLine l s = .next (nextLine (memWrite s off n v)))
    ∨ (∃ h d, hostLine l s = .next { s with host := h, draws := d }) := by
  cases l with
  | wr n off v =>
    simp only [hostLine, hostWrite]
    split
    · split
      · rcases writeCmd_cases (BitVec.ofNat 32 (evalExpr s.host.temps v)) s hs with ⟨i, -, h⟩ | ⟨e, -, h⟩
        · exact .inr (.inl ⟨i, by rw [h]; rfl⟩)
        · exact .inr (.inr (.inl ⟨_, by rw [h]; rfl⟩))
      · split
        · exact .inr (.inr (.inr (.inl ⟨_, rfl⟩)))
        · exact .inr (.inr (.inr (.inr (.inr ⟨_, s.draws, rfl⟩))))
    · exact .inl ⟨_, rfl⟩
  | rd n off t =>
    simp only [hostLine]
    split
    · exact .inr (.inr (.inr (.inr (.inr ⟨_, s.draws, rfl⟩))))
    · exact .inl ⟨_, rfl⟩
  | poll off m v =>
    simp only [hostLine]
    split
    · split
      · exact .inr (.inr (.inr (.inr (.inr ⟨_, s.draws, rfl⟩))))
      · exact .inr (.inr (.inr (.inr (.inr ⟨_, s.draws, rfl⟩))))
    · exact .inl ⟨_, rfl⟩
  | dw n a v =>
    simp only [hostLine]
    cases hc : dramCheck s (evalExpr s.host.temps a) n with
    | some f => exact .inl ⟨f, rfl⟩
    | none => exact .inr (.inr (.inr (.inr (.inl ⟨_, _, _, hc, rfl⟩))))
  | dr n a t =>
    simp only [hostLine]
    cases hc : dramCheck s (evalExpr s.host.temps a) n with
    | some f => exact .inl ⟨f, rfl⟩
    | none => exact .inr (.inr (.inr (.inr (.inr ⟨_, _, rfl⟩))))
  | ifGoto c l =>
    simp only [hostLine]
    split
    · exact .inr (.inr (.inr (.inr (.inr ⟨_, s.draws, rfl⟩))))
    · exact .inr (.inr (.inr (.inr (.inr ⟨_, s.draws, rfl⟩))))
  | goto l => exact .inr (.inr (.inr (.inr (.inr ⟨_, s.draws, rfl⟩))))
  | assign t e => exact .inr (.inr (.inr (.inr (.inr ⟨_, s.draws, rfl⟩))))
  | ret e => exact .inr (.inr (.inr (.inr (.inr ⟨_, s.draws, rfl⟩))))

/-! ## Steps -/

/-- Passing the turn changes the turns alone. -/
theorem passTurn_eq (s : State) : ∃ a b c, passTurn s = { s with turn := a, sched := b, tick := c } := by
  unfold passTurn
  split
  · exact ⟨_, _, s.tick, rfl⟩
  · exact ⟨_, s.sched, _, rfl⟩

/-- Replacing one entry of a rank's mode registers. -/
theorem mrSet_get (x : Vector Word 16) (i j : MrIndex) (v : Word) : (x.set i v)[j] = if j = i then v else x[j] := by
  have e := Vector.getElem_set (xs := x) (x := v) (i := i.val) (j := j.val) i.isLt j.isLt
  simp only [Fin.getElem_fin, e, Fin.ext_iff]
  by_cases h : j.val = i.val
  · rw [if_pos h.symm, if_pos h]
  · rw [if_neg (fun e => h e.symm), if_neg h]

/-- What rank 0 holds after the MR engine's write (R232). -/
theorem writeDeviceMr_rank0 (d : DeviceGeometry) (a : MrAddr) (v : Word) (mr : DeviceMr) (j : MrIndex) :
    (writeDeviceMr d a v mr).rank0[j] =
      if j = a.idx ∧ a.mask.getLsbD 0 = true ∧ 0 < d.ranks then v else mr.rank0[j] := by
  unfold writeDeviceMr
  dsimp only
  split <;> rename_i h
  · rw [mrSet_get]; simp only [h, and_true]
  · exact (if_neg fun e => h e.2).symm

/-- What rank 1 holds after the MR engine's write (R232). -/
theorem writeDeviceMr_rank1 (d : DeviceGeometry) (a : MrAddr) (v : Word) (mr : DeviceMr) (j : MrIndex) :
    (writeDeviceMr d a v mr).rank1[j] =
      if j = a.idx ∧ a.mask.getLsbD 1 = true ∧ 1 < d.ranks then v else mr.rank1[j] := by
  unfold writeDeviceMr
  dsimp only
  split <;> rename_i h
  · rw [mrSet_get]; simp only [h, and_true]
  · exact (if_neg fun e => h e.2).symm

/-- What an environment agent's step changes. -/
theorem envStep_eq (m : EnvMove) (s : State) : ∃ p c y d, envStep m s = { s with pll := p, ctl := c, phy := y, devMr := d } := by
  cases m with
  | pllLock => simp only [envStep, pllStep]; split <;> exact ⟨_, _, _, _, rfl⟩
  | phyInitDone => simp only [envStep, phyInitStep]; split <;> exact ⟨_, _, _, _, rfl⟩
  | opmode o => simp only [envStep, opmodeStep]; split <;> exact ⟨_, _, _, _, rfl⟩
  | mrComplete => simp only [envStep, mrEngineStep]; split <;> exact ⟨_, _, _, _, rfl⟩
  | calRespond b f r => simp only [envStep, calEngineStep]; split <;> exact ⟨_, _, _, _, rfl⟩

/-- Everything the host's step can do (R109). -/
theorem hostStep_cases {s u : State} (hs : s.turn = .host) (h : hostStep s = .next u) :
    (∃ i, u = nextLine (issue i s)) ∨ (∃ w, u = nextLine (issueIllegal w s))
      ∨ (∃ x, u = nextLine { s with geom := x })
      ∨ (∃ off n v, dramCheck s off n = none ∧ u = nextLine (memWrite s off n v))
      ∨ (∃ h d, u = { s with host := h, draws := d }) := by
  unfold hostStep at h
  split at h
  · injection h with h
    exact .inr (.inr (.inr (.inr ⟨s.host, s.draws, h.symm⟩)))
  · split at h
    · rename_i l hl
      rcases hostLine_cases l s hs with ⟨f, e⟩ | ⟨i, e⟩ | ⟨w, e⟩ | ⟨x, e⟩ | ⟨off, n, v, hc, e⟩ | ⟨hh, d, e⟩ <;>
        rw [e] at h
      · cases h
      all_goals injection h with h
      · exact .inl ⟨i, h.symm⟩
      · exact .inr (.inl ⟨w, h.symm⟩)
      · exact .inr (.inr (.inl ⟨x, h.symm⟩))
      · exact .inr (.inr (.inr (.inl ⟨off, n, v, hc, h.symm⟩)))
      · exact .inr (.inr (.inr (.inr ⟨hh, d, h.symm⟩)))
    · injection h with h
      exact .inr (.inr (.inr (.inr ⟨s.host, s.draws, h.symm⟩)))

/-- Everything the sequencer's step can do (R22): nothing, or its command's meaning. -/
theorem sequencerStep_cases {s u : State} (h : sequencerStep s = .next u) :
    (u = s ∧ (s.busy = false ∨ instrOfOpcode s.curCmd = none))
      ∨ ∃ i, s.busy = true ∧ instrOfOpcode s.curCmd = some i ∧ exec i s = .next u := by
  unfold sequencerStep at h
  split at h
  · rename_i hb
    split at h
    · rename_i i hi
      exact .inr ⟨i, hb, hi, h⟩
    · rename_i hi
      injection h with h
      exact .inl ⟨h.symm, .inr hi⟩
  · rename_i hb
    injection h with h
    exact .inl ⟨h.symm, .inl (by simpa using hb)⟩

/-- Some agent has the turn. -/
theorem turn_cases (s : State) :
    s.turn = .sequencer ∨ (∃ m, s.turn = .env m) ∨ s.turn = .blockReset ∨ s.turn = .host := by
  cases s.turn <;> simp

/-- Everything a step can do, by the agent whose turn it is (R20, R363): the state each agent leaves, before the turn
passes. -/
theorem step_cases {s t : State} (h : step s = .next t) :
    (s.turn = .sequencer ∧ ∃ u, t = passTurn u ∧ sequencerStep s = .next u)
    ∨ (∃ m, s.turn = .env m ∧ t = passTurn (envStep m s))
    ∨ (s.turn = .blockReset ∧ t = passTurn (blockReset s))
    ∨ (s.turn = .host ∧ ∃ u, t = passTurn u ∧ hostStep s = .next u) := by
  unfold step takeTurn at h
  rcases turn_cases s with ht | ⟨m, ht⟩ | ht | ht <;> simp only [ht] at h
  · cases hu : sequencerStep s with
    | next u => rw [hu] at h; injection h with h; exact .inl ⟨ht, u, h.symm, rfl⟩
    | fault f => rw [hu] at h; cases h
    | refused r => rw [hu] at h; cases h
  · injection h with h; exact .inr (.inl ⟨m, ht, h.symm⟩)
  · injection h with h; exact .inr (.inr (.inl ⟨ht, h.symm⟩))
  · cases hu : hostStep s with
    | next u => rw [hu] at h; injection h with h; exact .inr (.inr (.inr ⟨ht, u, h.symm, rfl⟩))
    | fault f => rw [hu] at h; cases h
    | refused r => rw [hu] at h; cases h

end Sys2Proof.Machine
end

