-- ==== Sys2Proof/Laws/PerInstr.lean ====
section
/-! SUPPORT. Facts stated for every instruction, one lemma per constructor. RoundTrip: a well-formed command's word is
legal (R104), and it decodes to that command. -/

namespace Sys2Proof.Laws

/-- The command's word is a legal one and decodes to the command (R100 to R104). -/
def RoundTrip.Statement (i : Instr) : Prop :=
  i.wellFormed = true → commandWordWellFormed (encode i) = true ∧ decode (encode i) = .ok i

theorem RoundTrip.clkInit : RoundTrip.Statement .clkInit := fun _ => ⟨by decide, decode_encode _⟩
theorem RoundTrip.cfgOdt : RoundTrip.Statement .cfgOdt := fun _ => ⟨by decide, decode_encode _⟩
theorem RoundTrip.cfgAddrmap : RoundTrip.Statement .cfgAddrmap := fun _ => ⟨by decide, decode_encode _⟩
theorem RoundTrip.cfgTiming : RoundTrip.Statement .cfgTiming := fun _ => ⟨by decide, decode_encode _⟩
theorem RoundTrip.phyInit : RoundTrip.Statement .phyInit := fun _ => ⟨by decide, decode_encode _⟩
theorem RoundTrip.dfiInit : RoundTrip.Statement .dfiInit := fun _ => ⟨by decide, decode_encode _⟩
theorem RoundTrip.rdCal : RoundTrip.Statement .rdCal := fun _ => ⟨by decide, decode_encode _⟩
theorem RoundTrip.bringup : RoundTrip.Statement .bringup := fun _ => ⟨by decide, decode_encode _⟩

end Sys2Proof.Laws
end

