-- ==== Sys2Proof/Tests/Slice0.lean ====
section
/-! SUPPORT. The model's own tests. Expected results come from the spec's vectors (95_test_vectors.md), named in each
comment, or are worked out by hand from a rule. Then, for every obligation with hypotheses, a witness that meets them:
concrete states and operands, clause by clause. -/

namespace Sys2Proof.Tests

open Sys2Proof Sys2Proof.Machine

/-! ## Small states -/

/-- PARAMS of vector E5: DDR4, clk 800, mr[4] = 0x1000, every flag clear. -/
def params : Params :=
  { tech := .ddr4, clk := 800, dxDrive := 0, dxOdt := 0, caDrive := 0, caOdt := 0
    mr := { mr0 := 0, mr1 := 0, mr2 := 0, mr3 := 0, mr4 := 0x1000, mr5 := 0, mr6 := 0, mr11 := 0, mr12 := 0,
            mr13 := 0, mr14 := 0 }
    flags := { caDelayEn := false, bitdly0En := false, bitdly1En := false, timingFlags := [] }
    caDelay := 0, bitdlyW0 := 0, bitdlyW1 := 0, vrefOverride := none }

/-- The device of the source's §8 (vector W5). -/
def device : DeviceGeometry := { ranks := 2, half := 0, cols := 10, banks := 3, bg := 2, rows := 16 }

/-- The board of vectors E4 and E5, with P_SECOND_PASS_COND = RANKW0. -/
def board : Board :=
  { params := params, dev := device, phyRouting := 0, readoutW := 3, dramWindow := 2 ^ 38, halfStartOffset := 3
    secondPass := .rankw0, mr6TeBit := 7, calMaskFull := 0xF, calMaskHalf := 0x3 }

/-- Reset on that board, with one move listed after the current one. -/
def base : State := { State.reset with board := board, sched := [.host] }

/-- After ST-12: everything configured for AM-3, STAGE = DFI_DONE, no command running. -/
def dfiDone : State :=
  { base with
    stage := .dfiDone, cmdDone := true, amDone := true, odtDone := true, timDone := true
    geom := 0xC23A, ag := 0xC23A, agValid := true, opGeom := 0xC23A
    ccu := { bridgeEn := true, busGate := true, modClkEn := true, dramRst := false }
    pll := { freq := 800, lock := true }
    ctl := { ctlAtReset with addrmap := addrmap 3 (geomFields 0xC23A), arefEn := true, opmode := .normal }
    phy := { phyAtReset with initDone := true, calReadout := ⟨2, 2, 2, 2⟩ } }

/-- After ST-13: the same, OPERATIONAL. -/
def operational : State :=
  { dfiDone with stage := .operational, attempts := 1, calBase := 4, phy := { dfiDone.phy with coarseBase := 4 } }

/-- A state in which a command is at a micro-step, on the sequencer's turn. -/
def running (opc : BitVec 8) (m : Micro) (s : State) : State :=
  { s with turn := .sequencer, busy := true, cmdDone := false, curCmd := opc, fsm := m }

/-- RD_CAL in its attempt number `k`. -/
def calibrating (k : Nat) (m : Micro) : State :=
  running 0x07 m { dfiDone with att := k, phy := { dfiDone.phy with calTrig := m == .calPoll || m == .calUntrig } }

/-- The same on a device with one column fewer, in a single-rank, two-bank configuration of 12 columns. -/
def probing (cols : Nat) : State :=
  { operational with
    board := { board with dev := { device with cols := cols } }
    ag := 0x3A2C, ctl := { operational.ctl with addrmap := addrmap 3 (geomFields 0x3A2C) } }

/-- The host is to run one line. -/
def withLine (l : HostLine) (s : State) : State :=
  { s with turn := .host, host := { prog := [l], pc := 0, temps := [], ret := none } }

/-- What an outcome's next state has, if there is one. -/
def after {α : Type} (o : StepOutcome) (f : State → α) : Option α :=
  match o with
  | .next t => some (f t)
  | .fault _ => none
  | .refused _ => none

/-- The fault of an outcome, if it is one. -/
def faultOf (o : StepOutcome) : Option Fault :=
  match o with
  | .next _ => none
  | .fault f => some f
  | .refused _ => none

/-! ## WellFormed: each check refuses an ill-formed term. (`Instr.wellFormed` refuses none: a command has no operand
that could be wrong, R100.) -/

theorem test_word_rsv_refused : commandWordWellFormed 0x00000108 = false := by decide
theorem test_word_opcode_zero_refused : commandWordWellFormed 0x00000000 = false := by decide
theorem test_word_opcode_nine_refused : commandWordWellFormed 0x00000009 = false := by decide
theorem test_word_eight_accepted : commandWordWellFormed 0x00000008 = true := by decide
theorem test_goto_past_end_refused : HostLine.wellFormed 2 (.goto 3) = false := by decide
theorem test_if_past_end_refused : HostLine.wellFormed 2 (.ifGoto (.lit 1) 3) = false := by decide
theorem test_program_refused : hostProgramWellFormed [.goto 2] = false := by decide
theorem test_clk_refused : Params.wellFormed { params with clk := 2 ^ 32 } = false := by decide
theorem test_no_rank_refused : DeviceGeometry.wellFormed { device with ranks := 0 } = false := by decide
theorem test_half_refused : DeviceGeometry.wellFormed { device with half := 2 } = false := by decide
theorem test_readout_refused : Board.wellFormed { board with readoutW := 2 } = false := by decide
theorem test_offset_refused : Board.wellFormed { board with halfStartOffset := 1 } = false := by decide
theorem test_tebit_refused : Board.wellFormed { board with mr6TeBit := 32 } = false := by decide
theorem test_board_accepted : Board.wellFormed board = true := by decide

/-! ## Decode: words written out bit by bit, RSV then OPC (R100, R101; vectors 3.1) -/

theorem test_decode_clkInit : decode 0b000000000000000000000000_00000001#32 = .ok .clkInit := by decide
theorem test_decode_cfgOdt : decode 0b000000000000000000000000_00000010#32 = .ok .cfgOdt := by decide
theorem test_decode_cfgAddrmap : decode 0b000000000000000000000000_00000011#32 = .ok .cfgAddrmap := by decide
theorem test_decode_cfgTiming : decode 0b000000000000000000000000_00000100#32 = .ok .cfgTiming := by decide
theorem test_decode_phyInit : decode 0b000000000000000000000000_00000101#32 = .ok .phyInit := by decide
theorem test_decode_dfiInit : decode 0b000000000000000000000000_00000110#32 = .ok .dfiInit := by decide
theorem test_decode_rdCal : decode 0b000000000000000000000000_00000111#32 = .ok .rdCal := by decide
theorem test_decode_bringup : decode 0b000000000000000000000000_00001000#32 = .ok .bringup := by decide
theorem test_decode_rsv : decode 0b100000000000000000000000_00000001#32 = .error .rsvNotZero := by decide
theorem test_decode_lowest_rsv : decode 0b000000000000000000000001_00001000#32 = .error .rsvNotZero := by decide
theorem test_decode_nine : decode 0b000000000000000000000000_00001001#32 = .error .reservedOpcode := by decide
theorem test_decode_zero : decode 0b000000000000000000000000_00000000#32 = .error .reservedOpcode := by decide
theorem test_table_word : decodeTableWord 32 7 = some .rdCal ∧ decodeTableWord 8 8 = some .bringup := by decide

/-! ## Instructions: one step each, at most two -/

/-- ST-4: the last micro-step of CLK_INIT. -/
theorem test_clkInit_last : after (step (running 0x01 .ckBridge base)) statusWord = some 0x00000402#32 := by decide
/-- ST-16: what the hold step keeps and clears, from OPERATIONAL. -/
theorem test_clkInit_hold : after (step (running 0x01 .ckHold operational))
    (fun t => (activeGeomWord t, calBaseWord t, t.stage, t.dram)) = some (0x0000C23A#32, 4#32, .reset, []) := by decide
/-- ST-6: CFG_ADDRMAP's last micro-step. -/
theorem test_cfgAddrmap_last : after (step (running 0x03 .amMap
    { base with stage := .clocked, opGeom := 0xC23A })) statusWord = some 0x00002402#32 := by decide
/-- ST-21: an invalid geometry (cols 7), ODT_DONE and TIM_DONE kept. -/
theorem test_cfgAddrmap_invalid : after (step (running 0x03 .amValidate
    { base with stage := .clocked, odtDone := true, timDone := true, opGeom := 0x3827 })) statusWord
      = some 0x0000C50A#32 := by decide
/-- ST-8: CFG_ODT's last micro-step. -/
theorem test_cfgOdt_last : after (step (running 0x02 .odtSh2 { base with stage := .clocked, amDone := true })) statusWord
    = some 0x00006402#32 := by decide
/-- 3.6: DDR4 with mr[4] = 0x1000 gives P_ODT_DDR4_PACK(7, P_ODT_DDR4_LO(0x1000)). -/
theorem test_cfgOdt_timing : after (step (running 0x02 .odtTim base)) (fun t => t.ctl.odtcfg)
    = some (Config.odtDdr4Pack 7 (Config.odtDdr4Lo 0x1000)) := rfl
/-- ST-9: CFG_TIMING. -/
theorem test_cfgTiming_last : after (step (running 0x04 .timWrite
    { base with stage := .clocked, amDone := true, odtDone := true })) statusWord = some 0x0000E402#32 := by decide
/-- ST-10: PHY_INIT's last micro-step. -/
theorem test_phyInit_last : after (step (running 0x05 .phyBdly1
    { base with stage := .clocked, amDone := true, odtDone := true, timDone := true })) statusWord
      = some 0x0000E802#32 := by decide
/-- 3.7: bit-delay word 0x00103081 gives lanes 1, 2, 3, 4. -/
theorem test_phyInit_bitdelay : after (step (running 0x05 .phyBdly0 { base with board := { board with params :=
    { params with flags := { params.flags with bitdly0En := true }, bitdlyW0 := 0x00103081 } } }))
      (fun t => t.phy.bitdly0) = some ⟨1, 2, 3, 4⟩ := by decide
/-- ST-12: DFI_INIT's last micro-step. -/
theorem test_dfiInit_last : after (step (running 0x06 .dfiArefOn { dfiDone with stage := .phyReady })) statusWord
    = some 0x0000EC02#32 := by decide
/-- 3.8: DDR4's seventh write is MR6 with TE set, to both ranks. -/
theorem test_dfiInit_mr6 : after (step (running 0x06 .dfiMrwSetup { dfiDone with mrIdx := 6, board :=
    { board with params := { params with mr := { params.mr with mr6 := 0xC15 } } } }))
      (fun t => (t.ctl.mrAddr, t.ctl.mrData)) = some (⟨0b11, 6⟩, 0x00000C95#32) := by decide
/-- ST-13: RD_CAL's last micro-step. -/
theorem test_rdCal_last : after (step (calibrating 1 .calDerive)) statusWord = some 0x0100F002#32 := by decide
/-- ST-17: the fifth attempt fails. -/
theorem test_rdCal_fails : after (step (calibrating 5 .calUntrig)) statusWord = some 0x0500F406#32 := by decide
/-- ST-24: BRINGUP's last micro-step. -/
theorem test_bringup_last : after (step { running 0x08 .calDerive dfiDone with sub := 6, att := 1 }) statusWord
    = some 0x0100F002#32 := by decide
/-- ST-22: BRINGUP on cols 7. -/
theorem test_bringup_invalid : after (step { running 0x08 .amValidate base with
    stage := .clocked, sub := 1, geom := 0x3827 }) statusWord = some 0x0000050A#32 := by decide

/-! ## Acceptance and the block window (vectors 3.2, 3.3) -/

/-- A CMD write: the STATUS word after it. -/
def cmdStatus (s : State) (w : Nat) : Option Word := after (step (s.withFetchWord 32 w)) statusWord

theorem test_accept : cmdStatus base 1 = some 0x00100001#32 := by decide
theorem test_illegal : cmdStatus base 9 = some 0x0000000E#32 := by decide
theorem test_sequence_error : cmdStatus base 3 = some 0x00000012#32 := by decide
theorem test_reject_keeps : cmdStatus operational 7 = some 0x0100F012#32 := by decide
theorem test_overrun : cmdStatus (running 0x01 .ckLock base) 4 = some 0x00130201#32 := by decide
theorem test_fatal_ignores : cmdStatus { base with stage := .clocked, cmdDone := true, result := .configInvalid, fatal := true } 1
    = some 0x0000050A#32 := by decide
theorem test_read_geom : after (step (withLine (.rd 4 0x08 3) base)) (fun t => tempValue t.host.temps 3)
    = some 0x3829 := by decide
theorem test_write_geom : after (step (withLine (.wr 4 0x08 (.lit 0xFFFFFFFF)) base)) geomWord
    = some 0x0001FFFF#32 := by decide
theorem test_misaligned_read : faultOf (step (withLine (.rd 4 0x06 0) base)) = some .hostBadAccess := by decide
/-- ST-28. -/
theorem test_block_reset : after (step { running 0x01 .ckLock base with turn := .blockReset, ovr := true })
    (fun t => (statusWord t, geomWord t)) = some (0#32, 0x00003829#32) := by decide

/-! ## Derivations and the data path (vectors 3.4 to 3.12) -/

theorem test_geometry_bounds : (([0x3828, 0x382C, 0x4829, 0x3A29].map fun w => validGeometry (geomFields w)).all id
    && ([0x3827, 0x382D, 0x3819, 0x3849, 0x3B29, 0x3429, 0x4C29, 0, 0x1FFFF].map fun w =>
      !validGeometry (geomFields w)).all id) = true := by decide
/-- AM-6. -/
theorem test_addrmap : (addrmap 3 (geomFields 0x452B)).bg.toList = [some 3, none]
    ∧ (addrmap 3 (geomFields 0x452B)).col.toList = (List.range' 4 8).map some ++ [none]
    ∧ (addrmap 3 (geomFields 0x452B)).bank.toList = [some 12, some 13, none]
    ∧ (addrmap 3 (geomFields 0x452B)).rank0 = none := by decide
/-- 3.11, AM-3: the last offset. -/
theorem test_decode_offset : decodeOffset (addrmap 3 (geomFields 0xC23A)) (geomFields 0xC23A) 0x3FFFFFFFF
    = { rank := 1, bg := 3, bank := 7, row := 65535, col := 1023, lane := 3 } := by decide
/-- 3.11: byte order. -/
theorem test_byte_order : memRead (memWrite operational 0 4 0x11223344) 2 2 = 0x1122 := by decide
/-- 3.11: the width and alignment are checked before readiness. -/
theorem test_misaligned_first : faultOf (step (withLine (.dr 2 (.lit 1) 0) base)) = some .dramMisaligned := by decide
theorem test_not_ready : faultOf (step (withLine (.dr 4 (.lit 0) 0) base)) = some .dramNotReady := by decide
theorem test_range : faultOf (step (withLine (.dr 4 (.lit 0x400000000) 0) operational)) = some .dramRange := by decide
/-- 3.9: the base from the largest readout. -/
theorem test_coarse_base : [0, 5, 6, 7, 8, 255].map (fun v => (coarseBaseOf ⟨0, v, 0, 0⟩).toNat) = [2, 7, 0, 1, 1, 1] := by
  decide
/-- W5. -/
theorem test_size : sizeOfGeometry (geomFields 0xC23A) = 2 ^ (10 + 16 + 3 + 2) * 4 * 2 := by decide
/-- 3.6, LPDDR3 at the largest clock. -/
theorem test_lp3_sub_field : lp3Q 0xFFFFFFFF = 15032385 ∧ lp3Temp2 399 = 3 ∧ lp3Temp2 400 = 4 := by decide

/-- R10's operators by hand: 7 - 3, 17 / 5, 17 mod 5, ~0b0110 at 4 bits, {0b10, 0b011}, and R287's choice. -/
theorem test_host_arithmetic :
    [HostExpr.bin .sub (.lit 7) (.lit 3), .bin .div (.lit 17) (.lit 5), .bin .mod (.lit 17) (.lit 5),
      .not 4 (.lit 0b0110), .cat 3 (.lit 0b10) (.lit 0b011), .cond (.tmp 2) (.lit 1) (.lit 2)].map (evalExpr [(2, 0)])
      = [4, 3, 2, 0b1001, 0b10011, 2] := by decide
/-- R284: the detection engine's first lines set hg to (9, 2, 0, 14, 1, 0) on any earlier temporaries. -/
theorem test_detection_start :
    ((detectionProgram .ddr4).take 6 == startGeometry && (detectionProgram .ddr3).take 6 == startGeometry) = true
    ∧ after (step (withLine (startGeometry[3]) base)) (fun t => tempValue t.host.temps tRows) = some 14 := by decide

/-! ## Witnesses: for every obligation with hypotheses, states and operands that meet them -/

theorem witness_CmdWriteFollowsAcceptanceOrder :
    (base.turn = .host ∧ { base with fatal := true }.fatal = true)
    ∧ (base.fatal = false ∧ { base with busy := true, fsm := .ckLock }.busy = true)
    ∧ (base.fatal = false ∧ base.busy = false
      ∧ (0x00000108#32).extractLsb' 8 24 ≠ 0 ∧ ((0x00000000#32).extractLsb' 0 8).toNat = 0
      ∧ 8 < ((0x00000009#32).extractLsb' 0 8).toNat)
    ∧ (0x00000003#32 = encode .cfgAddrmap ∧ precondition .cfgAddrmap base = false)
    ∧ (0x00000001#32 = encode .clkInit ∧ precondition .clkInit base = true)
    ∧ (0x00000003#32 = encode .cfgAddrmap ∧ precondition .cfgAddrmap { base with stage := .clocked } = true) := by decide

/-- Each `if` of the statement on both its sides. -/
theorem witness_CommandsRunExactlyInTheirStage :
    (base.turn = .host ∧ base.fatal = false ∧ base.busy = false ∧ base.stage ≠ .clocked ∧ base.stage ≠ .phyReady
      ∧ base.stage ≠ .dfiDone)
    ∧ (dfiDone.turn = .host ∧ dfiDone.fatal = false ∧ dfiDone.busy = false ∧ dfiDone.stage = .dfiDone)
    ∧ { dfiDone with stage := .clocked }.amDone = true ∧ { dfiDone with stage := .clocked }.odtDone = true
    ∧ { dfiDone with stage := .clocked }.timDone = true ∧ { dfiDone with stage := .phyReady }.stage = .phyReady := by
  decide

theorem witness_StepRunsDecodedInstruction :
    ((withLine (.wr 4 0x00 (.lit 8)) base).turn = .host ∧ (withLine (.wr 4 0x00 (.lit 8)) base).host.ret = none
      ∧ (withLine (.wr 4 0x00 (.lit 8)) base).host.prog[(withLine (.wr 4 0x00 (.lit 8)) base).host.pc]?
          = some (.wr 4 0x00 (.lit 8))
      ∧ decode (BitVec.ofNat 32 (evalExpr [] (.lit 8))) = .ok .bringup)
    ∧ ((running 0x08 .ckHold base).turn = .sequencer ∧ (running 0x08 .ckHold base).busy = true
      ∧ (running 0x08 .ckHold base).curCmd = Instr.bringup.opcode)
    ∧ (withLine (.wr 4 0x00 (.lit 9)) base).host.prog[0]? = some (.wr 4 0x00 (.lit 9)) := by decide

theorem witness_NoMoveIsRefused : (running 0x01 .ckLock base).turn ≠ .host := by decide

/-- The first and the last offset of the window, the offset with an effect, and both kinds of bad access. -/
theorem witness_BlockWindowAccesses :
    (withLine (.rd 4 0xFC 0) base).turn = .host ∧ (withLine (.rd 4 0xFC 0) base).host.ret = none
    ∧ (withLine (.rd 4 0xFC 0) base).host.prog[0]? = some (.rd 4 0xFC 0)
    ∧ (withLine (.wr 4 0x08 (.lit 1)) base).host.prog[0]? = some (.wr 4 0x08 (.lit 1))
    ∧ (4 = 4 ∧ (0xFC#8).toNat % 4 = 0 ∧ 0xFC#8 ≠ 0x00#8 ∧ 0xFC#8 ≠ 0x08#8)
    ∧ ¬(4 = 4 ∧ (0x06#8).toNat % 4 = 0) ∧ ¬(2 = 4 ∧ (0x04#8).toNat % 4 = 0) := by decide

theorem witness_GeometryWordRoundTrip :
    let g : Geometry := { cols := 15, banks := 15, bg := 3, rows := 31, rankw := 1, half := 1 }
    g.cols < 16 ∧ g.banks < 16 ∧ g.bg < 4 ∧ g.rows < 32 ∧ g.rankw < 2 ∧ g.half < 2 := by decide

theorem witness_BlockResetFromAnyState : { running 0x01 .ckLock base with turn := .blockReset }.turn = .blockReset := by
  decide

theorem witness_OnlyBlockResetClearsStickyBits : base.turn ≠ .blockReset
    ∧ { base with fatal := true, ovr := true }.fatal = true ∧ { base with fatal := true, ovr := true }.ovr = true
    ∧ ∃ t, step { base with fatal := true, ovr := true } = .next t := ⟨by decide, rfl, rfl, _, rfl⟩

theorem witness_FatalFreezesStatus : { base with fatal := true }.fatal = true ∧ base.busy = false
    ∧ base.turn ≠ .blockReset ∧ ∃ t, step ({ base with fatal := true }.withFetchWord 32 1) = .next t :=
  ⟨rfl, rfl, by decide, _, rfl⟩

/-- ClkInitMicroSteps, OdtTimingByTechnology, CfgOdtRunsToEnd, CfgTimingWritesTheBank, PhyInitRunsToReady,
DfiHandshakeTable and RdCalMicroSteps: every micro-step they name, on the sequencer's turn. -/
theorem witness_micro_steps (m : Micro) : (running 0x08 m base).turn = .sequencer ∧ (running 0x08 m base).fsm = m :=
  ⟨rfl, rfl⟩

theorem witness_ClkInitMicroSteps_lock :
    (running 0x01 .ckLock { base with pll := { freq := 0, lock := true } }).pll.lock = true := by decide

theorem witness_ClkInitRunsToClocked :
    (running 0x01 .ckHold base).fsm = .ckHold ∧ (running 0x01 .ckLock dfiDone).fsm = .ckLock
    ∧ (running 0x01 .ckLock dfiDone).pll.lock = true := by decide

theorem witness_InvalidGeometryEndsConfigInvalid :
    validGeometry (geomFields (running 0x03 .amValidate { base with opGeom := 0x3827 }).opGeom) = false := by decide

theorem witness_CfgAddrmapRunsToEnd :
    validGeometry (geomFields (running 0x03 .amValidate { base with opGeom := 0xCA3C }).opGeom) = true := by decide

/-- The smallest and the largest legal geometry, with each bank-group width. -/
theorem witness_AddressMapIsContiguous :
    validGeometry { cols := 8, banks := 2, bg := 0, rows := 14, rankw := 0, half := 1 } = true
    ∧ validGeometry { cols := 8, banks := 2, bg := 1, rows := 14, rankw := 0, half := 0 } = true
    ∧ validGeometry { cols := 12, banks := 3, bg := 2, rows := 18, rankw := 1, half := 0 } = true := by decide

theorem witness_BusWidthChangesShiftNotMap : board.halfStartOffset = 3
    ∧ { board with halfStartOffset := 2 }.halfStartOffset = 2
    ∧ validGeometry { cols := 8, banks := 2, bg := 0, rows := 14, rankw := 0, half := 1 } = true := by decide

/-- DDR4's first and last list entry. -/
theorem witness_DfiHandshakeTable :
    (running 0x06 .dfiWaitPhy dfiDone).phy.initDone = true ∧ (running 0x06 .dfiWaitNormal dfiDone).ctl.opmode = .normal
    ∧ (boardMrList dfiDone.board)[0]? = some (0, 0#32) ∧ (boardMrList dfiDone.board)[7]? = some (6, 0#32)
    ∧ (running 0x06 .dfiMrwPoll dfiDone).ctl.mrBusy = false := by decide

theorem witness_ModeRegisterWriteReachesDevice :
    (boardMrList (running 0x06 .dfiMrwSetup { dfiDone with mrIdx := 4 }).board)[4]? = some (4, 0x1000#32) := by decide

/-- The masks of RD_CAL's cases: complete, failed, second pass and none, attempts left and used up. -/
theorem witness_RdCalMicroSteps :
    (let s := calibrating 1 .calPoll
     { s with phy := { s.phy with calDone := 0xF } }.phy.calDone &&& 0xF#4 = 0xF#4
     ∧ s.phy.calDone &&& 0xF#4 ≠ 0xF#4 ∧ { s with phy := { s.phy with calFail := true } }.phy.calFail = true)
    ∧ (let s := { calibrating 1 .calUntrig with passOk := true }
       s.passOk = true ∧ s.pass = 0 ∧ (geomFields { s with ag := 0x3829 }.ag).rankw = 0 ∧ (geomFields s.ag).rankw = 1)
    ∧ (calibrating 4 .calUntrig).passOk = false ∧ (calibrating 4 .calUntrig).att < 5
    ∧ 5 ≤ (calibrating 5 .calUntrig).att := by decide

theorem witness_RdCalDerivesCoarseBase :
    let r : Lanes Nat := ⟨3, 5, 4, 2⟩
    let s := { calibrating 1 .calDerive with phy := { dfiDone.phy with calReadout := r } }
    (5 = s.phy.calReadout.lane1 ∧ s.phy.calReadout.lane0 ≤ 5 ∧ s.phy.calReadout.lane1 ≤ 5
      ∧ s.phy.calReadout.lane2 ≤ 5 ∧ s.phy.calReadout.lane3 ≤ 5) := by decide

/-- RD_CAL's micro-steps at the edge of their attempts, and CLK_INIT's hold step from OPERATIONAL. -/
def soundStates : List State :=
  [calibrating 0 .calStart, calibrating 4 .calAttempt, calibrating 5 .calTrig,
   { calibrating 5 .calPoll with phy := { (calibrating 5 .calPoll).phy with calFail := true } },
   calibrating 5 .calUntrig, calibrating 1 .calDerive, running 0x01 .ckHold operational]

/-- The invariant is met by states in which commands run. -/
theorem soundStates_meet_PipelineInv : ∀ s ∈ soundStates, PipelineInv s := by
  intro s hs
  simp only [soundStates, List.mem_cons, List.not_mem_nil, or_false] at hs
  rcases hs with rfl | rfl | rfl | rfl | rfl | rfl | rfl <;>
    exact { seq := { idle := by decide, running := by decide, fatalEnd := by decide, owner := by decide
                     attempts := by decide, attemptLeft := by decide, attemptBegun := by decide }
            clkStage := by decide, cfgStage := by decide, phyStage := by decide, dfiStage := by decide
            calStage := by decide, bringupOdt := by decide, bringupTiming := by decide, geometryChecked := by decide
            mapDone := by decide, configured := by decide, pllLocked := by decide, modClk := by decide
            rstReleased := by decide, busGateOpen := by decide, clocked := by decide, phyReleasing := by decide
            phyReleased := by decide, refreshOff := by decide, initCleared := by decide, phyInitDone := by decide
            srExited := by decide, normalSeen := by decide, mrIndex := by decide, handshake := by decide
            mrQuiet := by decide, calQuiet := by decide, calRaised := by decide, operational := by decide
            calFailed := by decide, dramEmpty := by decide }

/-- The bound: a waiting poll that ends, an attempt that starts; and a move of another agent while a command runs. -/
theorem witness_RdCalEndsWithinBound :
    (∀ s ∈ soundStates, s.turn = .sequencer)
    ∧ (∀ s ∈ soundStates, s.fsm = .calPoll → calPollEnds s = true)
    ∧ (microOwner (calibrating 4 .calAttempt).fsm = some .rdCal)
    ∧ ({ calibrating 1 .calPoll with turn := .host }.turn ≠ .sequencer
      ∧ { calibrating 1 .calPoll with turn := .host }.turn ≠ .blockReset
      ∧ { calibrating 1 .calPoll with turn := .host }.busy = true
      ∧ ∃ t, step { calibrating 1 .calPoll with turn := .host } = .next t) :=
  ⟨by decide, by decide, by decide, by decide, by decide, by decide, _, rfl⟩

/-- BRINGUP in each of its sub-commands. -/
theorem witness_BringupRunsItsSubCommands :
    ∀ j : Fin 7, ∃ i, subCommands[j.val]? = some i ∧ (running 0x08 (firstMicro i) base).turn = .sequencer
      ∧ microOwner (running 0x08 (firstMicro i) base).fsm = some i := by
  intro j
  fin_cases j <;> exact ⟨_, rfl, rfl, rfl⟩

theorem witness_BringupEnds :
    ({ running 0x08 .calDerive dfiDone with sub := 6 }.sub = 6)
    ∧ validGeometry (geomFields { running 0x08 .amValidate base with sub := 1, geom := 0x382D }.geom) = false
    ∧ ({ calibrating 5 .calUntrig with sub := 6 }.passOk = false ∧ 5 ≤ { calibrating 5 .calUntrig with sub := 6 }.att) := by
  decide

theorem witness_UnansweredPollHolds :
    (running 0x01 .ckLock base).pll.lock = false ∧ (running 0x06 .dfiWaitPhy base).phy.initDone = false
    ∧ (running 0x06 .dfiWaitNormal base).ctl.opmode ≠ .normal
    ∧ { running 0x06 .dfiMrwPoll base with ctl := { base.ctl with mrBusy := true } }.ctl.mrBusy = true
    ∧ calComplete (calibrating 1 .calPoll) = false ∧ (calibrating 1 .calPoll).phy.calFail = false := by decide

/-- An environment agent's turn. -/
def envTurn (m : EnvMove) (s : State) : State := { s with turn := .env m }

theorem witness_PhyInitEngineStep :
    (envTurn .phyInitDone { base with phyStarted := true }).turn = .env .phyInitDone
    ∧ (let s := envTurn .phyInitDone { base with phyStarted := true }
       s.phyStarted = true ∧ s.phy.rst = false ∧ s.phy.initDone = false)
    ∧ ¬(base.phyStarted = true ∧ base.phy.rst = false ∧ base.phy.initDone = false) := by decide

theorem witness_ControllerModeLogic :
    (envTurn (.opmode .normal) base).turn = .env (.opmode .normal)
    ∧ base.ctl.opmode ≠ .normal ∧ OpMode.selfRefresh ≠ OpMode.normal
    ∧ ({ base with phy := { base.phy with initDone := true } }.ctl.srReq = false
      ∧ { base with phy := { base.phy with initDone := true } }.phy.initDone = true)
    ∧ ¬(base.ctl.srReq = false ∧ base.phy.initDone = true) ∧ dfiDone.ctl.opmode = .normal := by decide

theorem witness_CalibrationEngineStep :
    (envTurn (.calRespond 7 false ⟨8, 1, 2, 3⟩) (calibrating 1 .calPoll)).turn = .env (.calRespond 7 false ⟨8, 1, 2, 3⟩)
    ∧ (calibrating 1 .calPoll).phy.calTrig = true ∧ calPollEnds (calibrating 1 .calPoll) = false
    ∧ ¬(base.phy.calTrig = true ∧ calPollEnds base = false) := by decide

theorem witness_PllAndMrEngineSteps :
    (envTurn .pllLock base).turn = .env .pllLock ∧ (envTurn .mrComplete base).turn = .env .mrComplete
    ∧ base.ctl.mrBusy = false
    ∧ { base with ctl := { base.ctl with mrBusy := true } }.ctl.mrBusy = true := by decide

/-- ConfiguratorFrame, PhyDfiCalFrame and DomainResetFrame: every instruction answers a next state in both agents'
hands, and at the hold step with SUB = 0. -/
theorem witness_frames (i : Instr) : (∃ t, exec i base = .next t) ∧ ∃ t, exec i (running 0x08 .ckHold base) = .next t := by
  cases i <;> exact ⟨⟨_, rfl⟩, ⟨_, rfl⟩⟩

theorem witness_RunningCommandIgnoresGeom : Instr.cfgAddrmap ≠ .bringup ∧ (running 0x03 .amMap base).turn = .sequencer
    ∧ ∃ t, exec .cfgAddrmap (running 0x03 .amMap base) = .next t := ⟨by decide, rfl, _, rfl⟩

/-- Each outcome at its boundary: a width of 3, an offset of 1, a stage before OPERATIONAL, the first offset beyond the
capacity and the last within it. -/
theorem witness_DramAccessOutcomes :
    (let s := withLine (.dw 4 (.lit 0x3FFFFFFFC) (.lit 1)) operational
     s.turn = .host ∧ s.host.ret = none ∧ s.host.prog[s.host.pc]? = some (.dw 4 (.lit 0x3FFFFFFFC) (.lit 1)))
    ∧ (let s := withLine (.dr 8 (.lit 0) 2) operational
       s.turn = .host ∧ s.host.ret = none ∧ s.host.prog[s.host.pc]? = some (.dr 8 (.lit 0) 2))
    ∧ ¬(3 = 1 ∨ 3 = 2 ∨ 3 = 4 ∨ 3 = 8) ∧ 1 % 4 ≠ 0 ∧ dfiDone.stage ≠ .operational
    ∧ (let g := geomFields operational.ag
       let cap := 2 ^ (g.cols + g.bg + g.banks + g.rows + g.rankw) * (if g.half = 1 then 2 else 4)
       0x3FFFFFFFC + 4 ≤ cap ∧ 0x3FFFFFFFC + 4 ≤ operational.board.dramWindow ∧ ¬(0x400000000 + 4 ≤ cap)) := by decide

theorem witness_WriteThenReadIsLittleEndian :
    (∀ i : Fin 8, cellOf operational (0x3FFFFFFF8 + i.val) ≠ none)
    ∧ (∀ i j : Fin 8, cellOf operational (0x3FFFFFFF8 + i.val) = cellOf operational (0x3FFFFFFF8 + j.val) → i = j)
    ∧ (∀ i : Fin 8, cellOf operational 0 ≠ cellOf operational (0x3FFFFFFF8 + i.val)) := by decide

/-- An absent rank, and an unwired lane. -/
theorem witness_AbsentStorageDropsAndDraws :
    ({ device with ranks := 1 }.ranks ≤ (decodeOffset operational.ctl.addrmap (geomFields operational.ag) 0x200000000).rank)
    ∧ ({ device with half := 1 }.half = 1
      ∧ 2 ≤ (decodeOffset operational.ctl.addrmap (geomFields operational.ag) 2).lane) := by decide

/-- The two offsets at the ends of the address space. -/
theorem witness_DistinctOffsetsReachDistinctCells :
    validGeometry (geomFields operational.ag) = true
    ∧ operational.ctl.addrmap = addrmap 3 (geomFields operational.ag)
    ∧ deviceCovers operational.board.dev (geomFields operational.ag)
    ∧ 0 < capacity (geomFields operational.ag) ∧ 0x3FFFFFFFF < capacity (geomFields operational.ag)
    ∧ 0 ≠ 0x3FFFFFFFF := by
  refine ⟨by decide, by decide, ?_, by decide, by decide, by decide⟩
  unfold deviceCovers
  decide

/-- A device that has column bit 8 and one that has not. -/
theorem witness_ColumnProbeFindsUnwiredBit : ∀ cols ∈ [8, 9],
    (let s := probing cols
     (geomFields s.ag).cols = 12 ∧ (geomFields s.ag).banks = 2 ∧ (geomFields s.ag).rows = 14
     ∧ (geomFields s.ag).bg ≤ 2 ∧ s.ctl.addrmap = addrmap 3 (geomFields s.ag) ∧ 1 ≤ s.board.dev.ranks
     ∧ 3 ≤ s.board.dev.cols ∧ (s.board.dev.half = 1 → (geomFields s.ag).half = 1)) := by decide

/-- BRINGUP at 0x22, where it reads no GEOM; at 0x20; and at 0x28 with HALF written after the map: ODTMAP is then of the
half bus, AG of the full one (R355). -/
theorem witness_BringupReadsGeomTwice :
    (∃ t, exec .bringup { running 0x08 .amMap base with sub := 1 } = .next t)
    ∧ validGeometry (geomFields { running 0x08 .amValidate base with sub := 1, geom := 0xC23A }.geom) = true
    ∧ (let s := { running 0x08 .odtMap dfiDone with sub := 2, geom := 0x1C23A }
       after (exec .bringup s) (fun t => (t.ctl.odtmap, (geomFields t.ag).half)) = some (Config.odtMapHalf, 0)) :=
  ⟨⟨_, rfl⟩, by decide, rfl⟩

/-- The smallest and the largest legal size are reached. -/
theorem witness_SizeIsCapacityInRange :
    (let g : Geometry := { cols := 8, banks := 2, bg := 0, rows := 14, rankw := 0, half := 1 }
     validGeometry g = true ∧ sizeOfGeometry g = 2 ^ 25)
    ∧ (let g : Geometry := { cols := 12, banks := 3, bg := 2, rows := 18, rankw := 1, half := 0 }
       validGeometry g = true ∧ sizeOfGeometry g = 2 ^ 38) := by decide

theorem witness_MrListByTechnology : 0 < 32 ∧ 31 < 32 := by decide

theorem witness_SizeIsMonotone : (geomFields 0xC23A).cols < 11 ∧ (geomFields 0xC23A).rows < 17
    ∧ (geomFields 0xC23A).banks < 4 ∧ (geomFields 0xC23A).bg < 3 ∧ (geomFields 0xC23A).rankw < 2 := by decide

theorem witness_PollRepeatsUntilMatch :
    (let s := withLine (.poll 0x04 (.lit 1) (.lit 0)) base
     s.turn = .host ∧ s.host.ret = none ∧ s.host.prog[s.host.pc]? = some (.poll 0x04 (.lit 1) (.lit 0))
     ∧ (0x04#8).toNat % 4 = 0 ∧ (readBlockReg s 0x04).toNat &&& 1 = 0)
    ∧ (let s := withLine (.poll 0x04 (.lit 1) (.lit 0)) { base with busy := true }
       (readBlockReg s 0x04).toNat &&& 1 ≠ 0) := by decide

/-- OPERATIONAL entered and left. -/
theorem witness_OperationalOnlyThroughCalibration :
    calibrating 1 .calDerive ∈ soundStates ∧ (calibrating 1 .calDerive).stage ≠ .operational
    ∧ after (step (calibrating 1 .calDerive)) State.stage = some .operational
    ∧ running 0x01 .ckHold operational ∈ soundStates ∧ (running 0x01 .ckHold operational).stage = .operational
    ∧ after (step (running 0x01 .ckHold operational)) State.stage = some .reset :=
  ⟨by simp [soundStates], by decide, by decide, by simp [soundStates], by decide, by decide⟩

theorem witness_CommandEndsOnlyWithItsResults :
    calibrating 5 .calUntrig ∈ soundStates ∧ (calibrating 5 .calUntrig).turn ≠ .blockReset
    ∧ (calibrating 5 .calUntrig).busy = true ∧ after (step (calibrating 5 .calUntrig)) State.busy = some false :=
  ⟨by simp [soundStates], by decide, by decide, by decide⟩

/-- BoardIsNeverWritten, StepKeepsMemoryCanonical and StepKeepsPipelineInv: a step from a sound state whose memory is
canonical. -/
theorem witness_step_invariants : calibrating 5 .calUntrig ∈ soundStates ∧ Memory.wf (calibrating 5 .calUntrig).dram
    ∧ ∃ t, step (calibrating 5 .calUntrig) = .next t := ⟨by simp [soundStates], List.Pairwise.nil, _, rfl⟩

end Sys2Proof.Tests
end

namespace Sys2Proof.Machine

/-! SUPPORT. The state's own statements (10_state.md). The pipeline invariant is cut into what it says of the control
registers, what it says by STAGE and what it says by FSM; each command's micro-steps keep the last two, and the
sequencer's step, the host's, the environment's and the block reset keep all three. -/

/-! ## The pipeline invariant in three parts -/

/-- What the invariant says of the control registers: FSM, BUSY, STATUS and the running command (R22, R312, R271). -/
structure ControlFacts (s : State) : Prop where
  idle : s.busy = false ↔ s.fsm = .idle
  running : s.busy = true → s.cmdDone = false ∧ s.result = .ok
  fatalEnd : s.fatal = true → s.busy = false ∧ s.cmdDone = true ∧ s.result = .configInvalid
  owner : s.busy = true → microOwner s.fsm = activeCommand s
  bringupOdt : s.busy = true → s.curCmd = 0x08#8 → s.sub = 2 → s.amDone = true
  bringupTiming : s.busy = true → s.curCmd = 0x08#8 → s.sub = 3 → s.amDone = true ∧ s.odtDone = true

/-- What the invariant says by STAGE, whatever FSM is (R30, R345). -/
structure StageFacts (s : State) : Prop where
  attempts : s.att ≤ 5 ∧ s.attempts ≤ 5
  mapDone : s.amDone = true → s.stage ≠ .reset →
    s.agValid = true ∧ validGeometry (geomFields s.ag) = true
      ∧ s.ctl.addrmap = addrmap (startOffset s.board (geomFields s.ag)) (geomFields s.ag)
  configured : Stage.phyUp s.stage = true → s.amDone = true ∧ s.odtDone = true ∧ s.timDone = true
  clocked : s.stage ≠ .reset → s.pll.lock = true
    ∧ s.ccu = { bridgeEn := true, busGate := true, modClkEn := true, dramRst := false }
  phyReleased : Stage.phyUp s.stage = true → s.phy.rst = false
  handshake : Stage.dfiUp s.stage = true → s.ctl.arefEn = true ∧ s.ctl.initCpl = false ∧ s.ctl.srReq = false
    ∧ s.ctl.opmode = .normal ∧ s.phy.initDone = true
  operational : s.stage = .operational → 1 ≤ s.attempts ∧ s.calBase = s.phy.coarseBase
  calFailed : s.stage = .calFailed → s.attempts = 5
  dramEmpty : s.stage ≠ .operational → s.dram = []

/-- Neither a mode-register write nor a calibration pass is in flight (R362). -/
def Quiet (s : State) : Prop := s.ctl.mrBusy = false ∧ s.phy.calTrig = false

/-- What is known whenever FSM is at micro-step `m`: the stage its command runs in (R106), what the micro-steps before
it have done (R121, R181, R211), what its command's polls have answered (R353), and that nothing is in flight that the
command does not wait for (R362). -/
def MicroFacts (s : State) (m : Micro) : Prop :=
  match m with
  | .idle | .ckHold => s.stage ≠ .reset → Quiet s
  | .ckSettleA | .ckPll | .ckLock => s.stage = .reset ∧ Quiet s
  | .ckModclk => s.stage = .reset ∧ Quiet s ∧ s.pll.lock = true
  | .ckRstRel => s.stage = .reset ∧ Quiet s ∧ s.pll.lock = true ∧ s.ccu.modClkEn = true
  | .ckSettleB | .ckBusgate =>
    s.stage = .reset ∧ Quiet s ∧ s.pll.lock = true ∧ s.ccu.modClkEn = true ∧ s.ccu.dramRst = false
  | .ckBridge =>
    s.stage = .reset ∧ Quiet s ∧ s.pll.lock = true ∧ s.ccu.modClkEn = true ∧ s.ccu.dramRst = false
      ∧ s.ccu.busGate = true
  | .amValidate | .odtMap | .odtTim | .odtSh0 | .odtSh1 | .odtSh2 | .timWrite => s.stage = .clocked ∧ Quiet s
  | .amMstr | .amMap => s.stage = .clocked ∧ Quiet s ∧ validGeometry (geomFields s.opGeom) = true
  | .phyRstRel => s.stage = .clocked ∧ Quiet s ∧ (s.amDone = true ∧ s.odtDone = true ∧ s.timDone = true)
  | .phySyscfg | .phyLat | .phySdq | .phyDrive | .phyVref | .phyQuirks | .phyLp4 | .phyCadly | .phyBdly0 | .phyBdly1 =>
    s.stage = .clocked ∧ Quiet s ∧ (s.amDone = true ∧ s.odtDone = true ∧ s.timDone = true) ∧ s.phy.rst = false
  | .dfiArefOff => s.stage = .phyReady ∧ Quiet s
  | .dfiInitSet | .dfiInitClr => s.stage = .phyReady ∧ Quiet s ∧ s.ctl.arefEn = false
  | .dfiWaitPhy => s.stage = .phyReady ∧ Quiet s ∧ s.ctl.arefEn = false ∧ s.ctl.initCpl = false
  | .dfiSrExit =>
    s.stage = .phyReady ∧ Quiet s ∧ s.ctl.arefEn = false ∧ s.ctl.initCpl = false ∧ s.phy.initDone = true
  | .dfiWaitNormal =>
    s.stage = .phyReady ∧ Quiet s ∧ s.ctl.arefEn = false ∧ s.ctl.initCpl = false ∧ s.phy.initDone = true
      ∧ s.ctl.srReq = false
  | .dfiMrwSetup | .dfiMrwTrig =>
    s.stage = .phyReady ∧ Quiet s ∧ s.ctl.arefEn = false ∧ s.ctl.initCpl = false ∧ s.phy.initDone = true
      ∧ s.ctl.srReq = false ∧ s.ctl.opmode = .normal ∧ s.mrIdx < (boardMrList s.board).length
  | .dfiMrwPoll =>
    s.stage = .phyReady ∧ s.phy.calTrig = false ∧ s.ctl.arefEn = false ∧ s.ctl.initCpl = false
      ∧ s.phy.initDone = true ∧ s.ctl.srReq = false ∧ s.ctl.opmode = .normal
      ∧ s.mrIdx < (boardMrList s.board).length
  | .dfiVendor | .dfiArefOn =>
    s.stage = .phyReady ∧ Quiet s ∧ s.ctl.arefEn = false ∧ s.ctl.initCpl = false ∧ s.phy.initDone = true
      ∧ s.ctl.srReq = false ∧ s.ctl.opmode = .normal
  | .calStart => s.stage = .dfiDone ∧ Quiet s
  | .calAttempt => s.stage = .dfiDone ∧ Quiet s ∧ s.att < 5
  | .calTrig | .calDerive => s.stage = .dfiDone ∧ Quiet s ∧ 1 ≤ s.att
  | .calPoll => s.stage = .dfiDone ∧ s.ctl.mrBusy = false ∧ s.phy.calTrig = true ∧ 1 ≤ s.att
  | .calUntrig => s.stage = .dfiDone ∧ s.ctl.mrBusy = false ∧ 1 ≤ s.att

theorem PipelineInv.controlFacts {s : State} (h : PipelineInv s) : ControlFacts s :=
  { h.seq, h with }

theorem PipelineInv.stageFacts {s : State} (h : PipelineInv s) : StageFacts s :=
  { h with attempts := h.seq.attempts }

/-- At a micro-step that waits for no engine nothing is in flight, out of STAGE = RESET or after CLK_INIT's hold step. -/
theorem PipelineInv.quiet {s : State} (h : PipelineInv s) (hs : s.stage ≠ .reset ∨ microFrom .ckSettleA s.fsm = true)
    (hm : s.fsm ∉ [Micro.dfiMrwPoll, .calPoll, .calUntrig] := by simp) : Quiet s := by
  simp only [List.mem_cons, List.not_mem_nil, or_false, not_or] at hm
  obtain ⟨hpoll, hcal, huntrig⟩ := hm
  exact ⟨h.mrQuiet hs hpoll, h.calQuiet hs hcal huntrig⟩

/-- The invariant's implications on FSM, read at the micro-step FSM holds. -/
theorem PipelineInv.microFacts {s : State} (h : PipelineInv s) : MicroFacts s s.fsm := by
  obtain ⟨board, fsm⟩ := s
  cases fsm with
  | idle | ckHold => exact fun hs => h.quiet (.inl hs)
  | ckSettleA | ckPll | ckLock => exact ⟨h.clkStage rfl, h.quiet (.inr rfl)⟩
  | ckModclk => exact ⟨h.clkStage rfl, h.quiet (.inr rfl), h.pllLocked rfl⟩
  | ckRstRel => exact ⟨h.clkStage rfl, h.quiet (.inr rfl), h.pllLocked rfl, h.modClk rfl⟩
  | ckSettleB | ckBusgate =>
    exact ⟨h.clkStage rfl, h.quiet (.inr rfl), h.pllLocked rfl, h.modClk rfl, h.rstReleased rfl⟩
  | ckBridge =>
    exact ⟨h.clkStage rfl, h.quiet (.inr rfl), h.pllLocked rfl, h.modClk rfl, h.rstReleased rfl,
      h.busGateOpen rfl⟩
  | amValidate =>
    have hs := h.cfgStage (.inl rfl)
    exact ⟨hs, h.quiet (.inl (hs.trans_ne nofun))⟩
  | amMstr | amMap =>
    have hs := h.cfgStage (.inl rfl)
    exact ⟨hs, h.quiet (.inl (hs.trans_ne nofun)), h.geometryChecked rfl⟩
  | odtMap | odtTim | odtSh0 | odtSh1 | odtSh2 =>
    have hs := h.cfgStage (.inr (.inl rfl))
    exact ⟨hs, h.quiet (.inl (hs.trans_ne nofun))⟩
  | timWrite =>
    have hs := h.cfgStage (.inr (.inr rfl))
    exact ⟨hs, h.quiet (.inl (hs.trans_ne nofun))⟩
  | phyRstRel =>
    obtain ⟨hs, hdone⟩ := h.phyStage rfl
    exact ⟨hs, h.quiet (.inl (hs.trans_ne nofun)), hdone⟩
  | phySyscfg | phyLat | phySdq | phyDrive | phyVref | phyQuirks | phyLp4 | phyCadly | phyBdly0 | phyBdly1 =>
    obtain ⟨hs, hdone⟩ := h.phyStage rfl
    exact ⟨hs, h.quiet (.inl (hs.trans_ne nofun)), hdone, h.phyReleasing rfl⟩
  | dfiArefOff =>
    have hs := h.dfiStage rfl
    exact ⟨hs, h.quiet (.inl (hs.trans_ne nofun))⟩
  | dfiInitSet | dfiInitClr =>
    have hs := h.dfiStage rfl
    exact ⟨hs, h.quiet (.inl (hs.trans_ne nofun)), h.refreshOff rfl⟩
  | dfiWaitPhy =>
    have hs := h.dfiStage rfl
    exact ⟨hs, h.quiet (.inl (hs.trans_ne nofun)), h.refreshOff rfl, h.initCleared rfl⟩
  | dfiSrExit =>
    have hs := h.dfiStage rfl
    exact ⟨hs, h.quiet (.inl (hs.trans_ne nofun)), h.refreshOff rfl, h.initCleared rfl, h.phyInitDone rfl⟩
  | dfiWaitNormal =>
    have hs := h.dfiStage rfl
    exact ⟨hs, h.quiet (.inl (hs.trans_ne nofun)), h.refreshOff rfl, h.initCleared rfl, h.phyInitDone rfl,
      h.srExited rfl⟩
  | dfiMrwSetup =>
    have hs := h.dfiStage rfl
    exact ⟨hs, h.quiet (.inl (hs.trans_ne nofun)), h.refreshOff rfl, h.initCleared rfl, h.phyInitDone rfl,
      h.srExited rfl, h.normalSeen rfl, h.mrIndex (.inl rfl)⟩
  | dfiMrwTrig =>
    have hs := h.dfiStage rfl
    exact ⟨hs, h.quiet (.inl (hs.trans_ne nofun)), h.refreshOff rfl, h.initCleared rfl, h.phyInitDone rfl,
      h.srExited rfl, h.normalSeen rfl, h.mrIndex (.inr (.inl rfl))⟩
  | dfiMrwPoll =>
    have hs := h.dfiStage rfl
    exact ⟨hs, h.calQuiet (.inl (hs.trans_ne nofun)) nofun nofun, h.refreshOff rfl, h.initCleared rfl,
      h.phyInitDone rfl, h.srExited rfl, h.normalSeen rfl, h.mrIndex (.inr (.inr rfl))⟩
  | dfiVendor | dfiArefOn =>
    have hs := h.dfiStage rfl
    exact ⟨hs, h.quiet (.inl (hs.trans_ne nofun)), h.refreshOff rfl, h.initCleared rfl, h.phyInitDone rfl,
      h.srExited rfl, h.normalSeen rfl⟩
  | calStart =>
    have hs := h.calStage rfl
    exact ⟨hs, h.quiet (.inl (hs.trans_ne nofun))⟩
  | calAttempt =>
    have hs := h.calStage rfl
    exact ⟨hs, h.quiet (.inl (hs.trans_ne nofun)), h.seq.attemptLeft rfl⟩
  | calTrig | calDerive =>
    have hs := h.calStage rfl
    exact ⟨hs, h.quiet (.inl (hs.trans_ne nofun)), h.seq.attemptBegun rfl⟩
  | calPoll =>
    have hs := h.calStage rfl
    exact ⟨hs, h.mrQuiet (.inl (hs.trans_ne nofun)) nofun, h.calRaised rfl, h.seq.attemptBegun rfl⟩
  | calUntrig =>
    have hs := h.calStage rfl
    exact ⟨hs, h.mrQuiet (.inl (hs.trans_ne nofun)) nofun, h.seq.attemptBegun rfl⟩

/-! The facts of a command's micro-steps, as the implications on the code order that the invariant states (R108). -/

theorem MicroFacts.clkInit {s : State} {m : Micro} (h : MicroFacts s m) :
    (microFrom .ckSettleA m = true → s.stage = .reset) ∧ (microFrom .ckModclk m = true → s.pll.lock = true)
      ∧ (microFrom .ckRstRel m = true → s.ccu.modClkEn = true)
      ∧ (microFrom .ckSettleB m = true → s.ccu.dramRst = false)
      ∧ (microFrom .ckBridge m = true → s.ccu.busGate = true) := by
  cases m <;> simp_all [MicroFacts, microFrom, microOwner, microCode]

theorem MicroFacts.configurator {s : State} {m : Micro} (h : MicroFacts s m) :
    (microOwner m = some .cfgAddrmap ∨ microOwner m = some .cfgOdt ∨ microOwner m = some .cfgTiming →
        s.stage = .clocked)
      ∧ (microFrom .amMstr m = true → validGeometry (geomFields s.opGeom) = true) := by
  cases m <;> simp_all [MicroFacts, microFrom, microOwner, microCode]

theorem MicroFacts.phyInit {s : State} {m : Micro} (h : MicroFacts s m) :
    (microOwner m = some .phyInit →
        s.stage = .clocked ∧ s.amDone = true ∧ s.odtDone = true ∧ s.timDone = true)
      ∧ (microFrom .phySyscfg m = true → s.phy.rst = false) := by
  cases m <;> simp_all [MicroFacts, microFrom, microOwner, microCode]

theorem MicroFacts.dfiInit {s : State} {m : Micro} (h : MicroFacts s m) :
    (microOwner m = some .dfiInit → s.stage = .phyReady) ∧ (microFrom .dfiInitSet m = true → s.ctl.arefEn = false)
      ∧ (microFrom .dfiWaitPhy m = true → s.ctl.initCpl = false)
      ∧ (microFrom .dfiSrExit m = true → s.phy.initDone = true)
      ∧ (microFrom .dfiWaitNormal m = true → s.ctl.srReq = false)
      ∧ (microFrom .dfiMrwSetup m = true → s.ctl.opmode = .normal)
      ∧ (m = .dfiMrwSetup ∨ m = .dfiMrwTrig ∨ m = .dfiMrwPoll → s.mrIdx < (boardMrList s.board).length) := by
  cases m <;> simp_all [MicroFacts, microFrom, microOwner, microCode]

theorem MicroFacts.rdCal {s : State} {m : Micro} (h : MicroFacts s m) :
    (microOwner m = some .rdCal → s.stage = .dfiDone) ∧ (m = .calAttempt → s.att < 5)
      ∧ (microFrom .calTrig m = true → 1 ≤ s.att) ∧ (m = .calPoll → s.phy.calTrig = true) := by
  cases m <;> simp_all [MicroFacts, microFrom, microOwner, microCode]

theorem MicroFacts.inFlight {s : State} {m : Micro} (h : MicroFacts s m)
    (hs : s.stage ≠ .reset ∨ microFrom .ckSettleA m = true) :
    (m ≠ .dfiMrwPoll → s.ctl.mrBusy = false) ∧ (m ≠ .calPoll → m ≠ .calUntrig → s.phy.calTrig = false) := by
  cases m <;> simp_all [MicroFacts, Quiet, microFrom, microOwner, microCode]

/-- The three parts are the whole invariant. -/
theorem PipelineInv.of_parts {s : State} (hc : ControlFacts s) (hs : StageFacts s) (hm : MicroFacts s s.fsm) :
    PipelineInv s := by
  obtain ⟨clkStage, pllLocked, modClk, rstReleased, busGateOpen⟩ := hm.clkInit
  obtain ⟨cfgStage, geometryChecked⟩ := hm.configurator
  obtain ⟨phyStage, phyReleasing⟩ := hm.phyInit
  obtain ⟨dfiStage, refreshOff, initCleared, phyInitDone, srExited, normalSeen, mrIndex⟩ := hm.dfiInit
  obtain ⟨calStage, attemptLeft, attemptBegun, calRaised⟩ := hm.rdCal
  exact { hc, hs with
    seq := { hc, hs with attemptLeft, attemptBegun }
    mrQuiet := fun h => (hm.inFlight h).1, calQuiet := fun h => (hm.inFlight h).2
    clkStage, pllLocked, modClk, rstReleased, busGateOpen, cfgStage, geometryChecked, phyStage, phyReleasing
    dfiStage, refreshOff, initCleared, phyInitDone, srExited, normalSeen, mrIndex, calStage, calRaised }

/-! ## Each command's micro-steps keep what is known by STAGE and by FSM -/

theorem StageFacts.of_reset {s : State} (hs : s.stage = .reset) (ha : s.att ≤ 5 ∧ s.attempts ≤ 5) (hd : s.dram = []) :
    StageFacts s where
  attempts := ha
  mapDone := fun _ h => absurd hs h
  configured := fun h => by rw [hs] at h; cases h
  clocked := fun h => absurd hs h
  phyReleased := fun h => by rw [hs] at h; cases h
  handshake := fun h => by rw [hs] at h; cases h
  operational := fun h => by rw [hs] at h; cases h
  calFailed := fun h => by rw [hs] at h; cases h
  dramEmpty := fun _ => hd

theorem clkInitMicro_facts {s : State} (hs : StageFacts s) (hm : MicroFacts s s.fsm)
    (ho : microOwner s.fsm = some .clkInit) :
    StageFacts (microAlone (clkInitMicro s))
      ∧ MicroFacts (microAlone (clkInitMicro s)) (microAlone (clkInitMicro s)).fsm := by
  have inReset (h : s.stage = .reset) : s.dram = [] := hs.dramEmpty (h.trans_ne nofun)
  cases hf : s.fsm <;> rw [hf] at ho hm <;> cases ho <;> simp only [clkInitMicro, hf, microAlone_goTo, microAlone_fin]
  case ckHold => exact ⟨.of_reset rfl hs.attempts rfl, rfl, rfl, rfl⟩
  case ckSettleA =>
    obtain ⟨hstage, hquiet⟩ := hm
    exact ⟨.of_reset hstage hs.attempts (inReset hstage), hstage, hquiet⟩
  case ckPll =>
    obtain ⟨hstage, hquiet⟩ := hm
    exact ⟨.of_reset hstage hs.attempts (inReset hstage), hstage, hquiet⟩
  case ckLock =>
    obtain ⟨hstage, hquiet⟩ := hm
    rw [microAlone_ite, microAlone_goTo, microAlone_go]
    split
    · exact ⟨.of_reset hstage hs.attempts (inReset hstage), hstage, hquiet, ‹_›⟩
    · exact ⟨hs, by rw [hf]; exact ⟨hstage, hquiet⟩⟩
  case ckModclk =>
    obtain ⟨hstage, hquiet, hlock⟩ := hm
    exact ⟨.of_reset hstage hs.attempts (inReset hstage), hstage, hquiet, hlock, rfl⟩
  case ckRstRel =>
    obtain ⟨hstage, hquiet, hlock, hmod⟩ := hm
    exact ⟨.of_reset hstage hs.attempts (inReset hstage), hstage, hquiet, hlock, hmod, rfl⟩
  case ckSettleB =>
    obtain ⟨hstage, hquiet, hlock, hmod, hrst⟩ := hm
    exact ⟨.of_reset hstage hs.attempts (inReset hstage), hstage, hquiet, hlock, hmod, hrst⟩
  case ckBusgate =>
    obtain ⟨hstage, hquiet, hlock, hmod, hrst⟩ := hm
    exact ⟨.of_reset hstage hs.attempts (inReset hstage), hstage, hquiet, hlock, hmod, hrst, rfl⟩
  case ckBridge =>
    obtain ⟨hstage, hquiet, hlock, hmod, hrst, hgate⟩ := hm
    exact ⟨{ attempts := hs.attempts, mapDone := nofun, configured := nofun
             clocked := fun _ => ⟨hlock, by simp [endCmd, hmod, hrst, hgate]⟩
             phyReleased := nofun, handshake := nofun, operational := nofun, calFailed := nofun
             dramEmpty := fun _ => inReset hstage },
      fun _ => hquiet⟩

theorem cfgAddrmapMicro_facts {s : State} (hs : StageFacts s) (hm : MicroFacts s s.fsm)
    (ho : microOwner s.fsm = some .cfgAddrmap) :
    StageFacts (microAlone (cfgAddrmapMicro s))
      ∧ MicroFacts (microAlone (cfgAddrmapMicro s)) (microAlone (cfgAddrmapMicro s)).fsm := by
  cases hf : s.fsm <;> rw [hf] at ho hm <;> cases ho <;> simp only [cfgAddrmapMicro, hf, microAlone_goTo, microAlone_fin]
  case amValidate =>
    obtain ⟨hstage, hquiet⟩ := hm
    rw [microAlone_ite, microAlone_goTo, microAlone_fin]
    split
    · exact ⟨{ hs with }, hstage, hquiet, ‹_›⟩
    · exact ⟨{ hs with }, fun _ => hquiet⟩
  case amMstr =>
    obtain ⟨hstage, hquiet, hvalid⟩ := hm
    exact ⟨{ hs with }, hstage, hquiet, hvalid⟩
  case amMap =>
    obtain ⟨hstage, hquiet, hvalid⟩ := hm
    exact ⟨{ hs with mapDone := fun _ _ => ⟨rfl, hvalid, rfl⟩
                     configured := fun h => absurd h (by simp [hstage, Stage.phyUp]) }, fun _ => hquiet⟩

theorem cfgOdtMicro_facts {s : State} (hs : StageFacts s) (hm : MicroFacts s s.fsm)
    (ho : microOwner s.fsm = some .cfgOdt) :
    StageFacts (microAlone (cfgOdtMicro s))
      ∧ MicroFacts (microAlone (cfgOdtMicro s)) (microAlone (cfgOdtMicro s)).fsm := by
  cases hf : s.fsm <;> rw [hf] at ho hm <;> cases ho <;> simp only [cfgOdtMicro, hf, microAlone_goTo, microAlone_fin]
  case odtSh2 =>
    obtain ⟨hstage, hquiet⟩ := hm
    exact ⟨{ hs with configured := fun h => absurd h (by simp [hstage, Stage.phyUp]) }, fun _ => hquiet⟩
  all_goals exact ⟨{ hs with }, hm⟩

theorem cfgTimingMicro_facts {s : State} (hs : StageFacts s) (hm : MicroFacts s s.fsm)
    (ho : microOwner s.fsm = some .cfgTiming) :
    StageFacts (microAlone (cfgTimingMicro s))
      ∧ MicroFacts (microAlone (cfgTimingMicro s)) (microAlone (cfgTimingMicro s)).fsm := by
  cases hf : s.fsm <;> rw [hf] at ho hm <;> cases ho
  case timWrite =>
    obtain ⟨hstage, hquiet⟩ := hm
    simp only [cfgTimingMicro, hf, microAlone_fin]
    exact ⟨{ hs with configured := fun h => absurd h (by simp [hstage, Stage.phyUp]) }, fun _ => hquiet⟩

theorem phyInitMicro_facts {s : State} (hs : StageFacts s) (hm : MicroFacts s s.fsm)
    (ho : microOwner s.fsm = some .phyInit) :
    StageFacts (microAlone (phyInitMicro s))
      ∧ MicroFacts (microAlone (phyInitMicro s)) (microAlone (phyInitMicro s)).fsm := by
  cases hf : s.fsm <;> rw [hf] at ho hm <;> cases ho <;> simp only [phyInitMicro, hf, microAlone_goTo, microAlone_fin]
  case phyRstRel =>
    obtain ⟨hstage, hquiet, hdone⟩ := hm
    exact ⟨{ hs with phyReleased := fun _ => rfl }, hstage, hquiet, hdone, rfl⟩
  case phyBdly1 =>
    obtain ⟨hstage, hquiet, hdone, hrst⟩ := hm
    have hmap := hs.mapDone hdone.1 (hstage.trans_ne nofun)
    have hclk := hs.clocked (hstage.trans_ne nofun)
    have hdram := hs.dramEmpty (hstage.trans_ne nofun)
    split <;>
      exact ⟨{ attempts := hs.attempts, mapDone := fun _ _ => hmap, configured := fun _ => hdone
               clocked := fun _ => hclk, phyReleased := fun _ => hrst, handshake := nofun
               operational := nofun, calFailed := nofun, dramEmpty := fun _ => hdram }, fun _ => hquiet⟩
  case phyLp4 => split <;> exact ⟨{ hs with }, hm⟩
  case phyCadly => split <;> exact ⟨{ hs with }, hm⟩
  case phyBdly0 => split <;> exact ⟨{ hs with }, hm⟩
  all_goals exact ⟨{ hs with }, hm⟩

theorem dfiInitMicro_facts {s : State} (hs : StageFacts s) (hm : MicroFacts s s.fsm)
    (ho : microOwner s.fsm = some .dfiInit) :
    StageFacts (microAlone (dfiInitMicro s))
      ∧ MicroFacts (microAlone (dfiInitMicro s)) (microAlone (dfiInitMicro s)).fsm := by
  have notUp (h : s.stage = .phyReady) : ¬ Stage.dfiUp s.stage = true := by simp [h, Stage.dfiUp]
  cases hf : s.fsm <;> rw [hf] at ho hm <;> cases ho <;> simp only [dfiInitMicro, hf, microAlone_goTo, microAlone_fin]
  case dfiArefOff =>
    obtain ⟨hstage, hquiet⟩ := hm
    exact ⟨{ hs with handshake := fun h => absurd h (notUp hstage) }, hstage, hquiet, rfl⟩
  case dfiInitSet =>
    obtain ⟨hstage, hquiet, hoff⟩ := hm
    exact ⟨{ hs with handshake := fun h => absurd h (notUp hstage) }, hstage, hquiet, hoff⟩
  case dfiInitClr =>
    obtain ⟨hstage, hquiet, hoff⟩ := hm
    exact ⟨{ hs with handshake := fun h => absurd h (notUp hstage) }, hstage, hquiet, hoff, rfl⟩
  case dfiWaitPhy =>
    obtain ⟨hstage, hquiet, hoff, hcpl⟩ := hm
    rw [microAlone_ite, microAlone_goTo, microAlone_go]
    split
    · exact ⟨{ hs with }, hstage, hquiet, hoff, hcpl, ‹_›⟩
    · exact ⟨hs, by rw [hf]; exact ⟨hstage, hquiet, hoff, hcpl⟩⟩
  case dfiSrExit =>
    obtain ⟨hstage, hquiet, hoff, hcpl, hdone⟩ := hm
    exact ⟨{ hs with handshake := fun h => absurd h (notUp hstage) }, hstage, hquiet, hoff, hcpl, hdone, rfl⟩
  case dfiWaitNormal =>
    obtain ⟨hstage, hquiet, hoff, hcpl, hdone, hsr⟩ := hm
    simp only [microAlone_ite, microAlone_goTo, microAlone_go]
    split
    · rename_i hnormal
      split
      · exact ⟨{ hs with }, hstage, hquiet, hoff, hcpl, hdone, hsr, hnormal⟩
      · rename_i hlist
        exact ⟨{ hs with }, hstage, hquiet, hoff, hcpl, hdone, hsr, hnormal,
          List.length_pos_of_ne_nil (by simpa using hlist)⟩
    · exact ⟨hs, by rw [hf]; exact ⟨hstage, hquiet, hoff, hcpl, hdone, hsr⟩⟩
  case dfiMrwSetup =>
    split
    · exact ⟨{ hs with }, hm⟩
    · exact ⟨hs, by rw [microAlone_go, hf]; exact hm⟩
  case dfiMrwTrig =>
    obtain ⟨hstage, ⟨-, htrig⟩, hrest⟩ := hm
    exact ⟨{ hs with }, hstage, htrig, hrest⟩
  case dfiMrwPoll =>
    obtain ⟨hstage, htrig, hoff, hcpl, hdone, hsr, hnormal, hidx⟩ := hm
    simp only [microAlone_ite, microAlone_goTo, microAlone_go]
    split
    · exact ⟨hs, by rw [hf]; exact ⟨hstage, htrig, hoff, hcpl, hdone, hsr, hnormal, hidx⟩⟩
    · rename_i hbusy
      have hquiet : Quiet s := ⟨by simpa using hbusy, htrig⟩
      split
      · exact ⟨{ hs with }, hstage, hquiet, hoff, hcpl, hdone, hsr, hnormal, ‹_›⟩
      · exact ⟨{ hs with }, hstage, hquiet, hoff, hcpl, hdone, hsr, hnormal⟩
  case dfiVendor => split <;> exact ⟨{ hs with }, hm⟩
  case dfiArefOn =>
    obtain ⟨hstage, hquiet, -, hcpl, hdone, hsr, hnormal⟩ := hm
    have hup : Stage.phyUp s.stage = true := by simp [hstage, Stage.phyUp]
    exact ⟨{ attempts := hs.attempts
             mapDone := fun ham _ => hs.mapDone ham (hstage.trans_ne nofun)
             configured := fun _ => hs.configured hup
             clocked := fun _ => hs.clocked (hstage.trans_ne nofun)
             phyReleased := fun _ => hs.phyReleased hup
             handshake := fun _ => ⟨rfl, hcpl, hsr, hnormal, hdone⟩
             operational := nofun, calFailed := nofun
             dramEmpty := fun _ => hs.dramEmpty (hstage.trans_ne nofun) }, fun _ => hquiet⟩

/-- At the end of RD_CAL only what OPERATIONAL and CAL_FAILED say is new (R250, R255). -/
theorem StageFacts.end_of_rdCal {s t : State} (hs : StageFacts s) (hstage : s.stage = .dfiDone)
    (ht : t = { s with stage := t.stage, attempts := s.att, calBase := t.calBase, fsm := t.fsm, busy := t.busy
                       cmdDone := t.cmdDone, result := t.result
                       phy := { s.phy with calTrig := t.phy.calTrig, coarseBase := t.phy.coarseBase } })
    (hend : t.stage = .operational ∧ 1 ≤ s.att ∧ t.calBase = t.phy.coarseBase ∨ t.stage = .calFailed ∧ s.att = 5) :
    StageFacts t := by
  have hup : Stage.phyUp s.stage = true := by simp [hstage, Stage.phyUp]
  have hdfi : Stage.dfiUp s.stage = true := by simp [hstage, Stage.dfiUp]
  have hdram : s.dram = [] := hs.dramEmpty (hstage.trans_ne nofun)
  rw [ht]
  exact
    { attempts := ⟨hs.attempts.1, hs.attempts.1⟩
      mapDone := fun ham _ => hs.mapDone ham (hstage.trans_ne nofun)
      configured := fun _ => hs.configured hup
      clocked := fun _ => hs.clocked (hstage.trans_ne nofun)
      phyReleased := fun _ => hs.phyReleased hup
      handshake := fun _ => hs.handshake hdfi
      operational := fun h => by
        rcases hend with ⟨-, hatt, hbase⟩ | ⟨hfail, -⟩
        · exact ⟨hatt, hbase⟩
        · cases hfail.symm.trans h
      calFailed := fun h => by
        rcases hend with ⟨hok, -⟩ | ⟨-, hatt⟩
        · cases hok.symm.trans h
        · exact hatt
      dramEmpty := fun _ => hdram }

theorem rdCalMicro_facts {s : State} (hs : StageFacts s) (hm : MicroFacts s s.fsm)
    (ho : microOwner s.fsm = some .rdCal) :
    StageFacts (microAlone (rdCalMicro s))
      ∧ MicroFacts (microAlone (rdCalMicro s)) (microAlone (rdCalMicro s)).fsm := by
  obtain ⟨hatt, hattempts⟩ := hs.attempts
  cases hf : s.fsm <;> rw [hf] at ho hm <;> cases ho <;> simp only [rdCalMicro, hf, microAlone_goTo, microAlone_fin]
  case calStart =>
    obtain ⟨hstage, hquiet⟩ := hm
    exact ⟨{ hs with attempts := ⟨Nat.zero_le 5, hattempts⟩ }, hstage, hquiet, Nat.zero_lt_succ 4⟩
  case calAttempt =>
    obtain ⟨hstage, hquiet, hleft⟩ := hm
    exact ⟨{ hs with attempts := ⟨hleft, hattempts⟩ }, hstage, hquiet, Nat.le_add_left 1 s.att⟩
  case calTrig =>
    obtain ⟨hstage, ⟨hbusy, -⟩, hbegun⟩ := hm
    exact ⟨{ hs with }, hstage, hbusy, rfl, hbegun⟩
  case calPoll =>
    obtain ⟨hstage, hbusy, htrig, hbegun⟩ := hm
    rw [microAlone_ite, microAlone_goTo, microAlone_go]
    split
    · exact ⟨{ hs with }, hstage, hbusy, hbegun⟩
    · exact ⟨hs, by rw [hf]; exact ⟨hstage, hbusy, htrig, hbegun⟩⟩
  case calUntrig =>
    obtain ⟨hstage, hbusy, hbegun⟩ := hm
    simp only [microAlone_ite, microAlone_goTo, microAlone_fin]
    split
    · split <;> exact ⟨{ hs with }, hstage, ⟨hbusy, rfl⟩, hbegun⟩
    · split
      · exact ⟨{ hs with }, hstage, ⟨hbusy, rfl⟩, ‹_›⟩
      · rename_i hnone
        exact ⟨hs.end_of_rdCal hstage rfl (.inr ⟨rfl, Nat.le_antisymm hatt (Nat.le_of_not_lt hnone)⟩),
          fun _ => ⟨hbusy, rfl⟩⟩
  case calDerive =>
    obtain ⟨hstage, hquiet, hbegun⟩ := hm
    exact ⟨hs.end_of_rdCal hstage rfl (.inl ⟨rfl, hbegun, rfl⟩), fun _ => hquiet⟩

/-- A micro-step of the command it belongs to keeps what is known by STAGE and by FSM. -/
theorem subMicro_facts {s : State} {i : Instr} (hs : StageFacts s) (hm : MicroFacts s s.fsm)
    (ho : microOwner s.fsm = some i) :
    StageFacts (microAlone (subMicro i s)) ∧ MicroFacts (microAlone (subMicro i s)) (microAlone (subMicro i s)).fsm := by
  cases i with
  | clkInit => exact clkInitMicro_facts hs hm ho
  | cfgOdt => exact cfgOdtMicro_facts hs hm ho
  | cfgAddrmap => exact cfgAddrmapMicro_facts hs hm ho
  | cfgTiming => exact cfgTimingMicro_facts hs hm ho
  | phyInit => exact phyInitMicro_facts hs hm ho
  | dfiInit => exact dfiInitMicro_facts hs hm ho
  | rdCal => exact rdCalMicro_facts hs hm ho
  | bringup => exact ⟨hs, hm⟩

/-! ## What a command's own micro-steps do to the control registers -/

/-- What the end of command `i`, with result `r` from `s` to `t`, says of FATAL, STAGE and the done bits (R310). -/
def MicroEnd (i : Instr) (s : State) (r : Result) (t : State) : Prop :=
  match i with
  | .clkInit => r = .ok ∧ t.fatal = s.fatal ∧ t.stage = .clocked
  | .cfgAddrmap =>
    (r = .ok ∧ t.fatal = s.fatal ∧ t.amDone = true ∨ r = .configInvalid ∧ s.fsm = .amValidate) ∧ t.stage = s.stage
  | .cfgOdt => r = .ok ∧ t.fatal = s.fatal ∧ t.stage = s.stage ∧ t.amDone = s.amDone ∧ t.odtDone = true
  | .cfgTiming =>
    r = .ok ∧ t.fatal = s.fatal ∧ t.stage = s.stage ∧ t.amDone = s.amDone ∧ t.odtDone = s.odtDone ∧ t.timDone = true
  | .phyInit => r = .ok ∧ t.fatal = s.fatal ∧ t.stage = .phyReady
  | .dfiInit => r = .ok ∧ t.fatal = s.fatal ∧ t.stage = .dfiDone
  | .rdCal =>
    t.fatal = s.fatal ∧ (r = .ok ∧ s.fsm = .calDerive ∧ t.stage = .operational
      ∨ r = .calFail ∧ s.fsm = .calUntrig ∧ t.stage = .calFailed)
  | .bringup => False

theorem subMicro_end {i : Instr} {s t : State} {r : Result} (h : subMicro i s = .fin r t) : MicroEnd i s r t := by
  cases i <;> simp only [subMicro, clkInitMicro, cfgOdtMicro, cfgAddrmapMicro, cfgTimingMicro, phyInitMicro,
    dfiInitMicro, rdCalMicro, goTo] at h
  all_goals
    repeat' split at h
    all_goals cases h
    all_goals simp_all [MicroEnd]

/-- A micro-step that does not end its command keeps FATAL and the done bits, and STAGE but at the hold step. -/
theorem subMicro_go_keeps {i : Instr} {s t : State} (h : subMicro i s = .go t) :
    t.fatal = s.fatal ∧ t.amDone = s.amDone ∧ t.odtDone = s.odtDone ∧ t.timDone = s.timDone
      ∧ (t.stage = s.stage ∨ s.fsm = .ckHold ∧ t.stage = .reset) := by
  cases i <;> simp only [subMicro, clkInitMicro, cfgOdtMicro, cfgAddrmapMicro, cfgTimingMicro, phyInitMicro,
    dfiInitMicro, rdCalMicro, goTo] at h
  all_goals
    repeat' split at h
    all_goals cases h
    all_goals simp_all [domainReset, regWrite]

/-- A command ends with FATAL newly set only as CONFIG_INVALID (R312). -/
theorem MicroEnd.fatal {i : Instr} {s t : State} {r : Result} (h : MicroEnd i s r t) :
    t.fatal = s.fatal ∨ r = .configInvalid := by
  cases i <;> simp only [MicroEnd] at h <;> tauto

theorem microOwner_eq_none {m : Micro} : microOwner m = none ↔ m = .idle := by
  cases m <;> simp [microOwner]

@[simp] theorem microOwner_firstMicro {i : Instr} (hi : i ≠ .bringup) : microOwner (firstMicro i) = some i := by
  revert hi
  cases i <;> decide

/-- Everything the sequencer's step can do, by micro-steps: nothing; or a micro-step of the command FSM belongs to, alone
or inside BRINGUP, on an operand that is re-read at its first micro-step alone; or inside BRINGUP the end of a
sub-command with the start of the next (R22, R270, R355). -/
theorem sequencerStep_micro {s u : State} (hc : ControlFacts s) (ht : s.turn = .sequencer)
    (h : sequencerStep s = .next u) :
    u = s ∨ ∃ i x, s.busy = true ∧ microOwner s.fsm = some i ∧ (x = s.opGeom ∨ s.fsm = firstMicro i)
      ∧ (u = microAlone (subMicro i { s with opGeom := x })
        ∨ ∃ t j, s.curCmd = 0x08#8 ∧ subCommands[s.sub]? = some i ∧ subCommands[s.sub + 1]? = some j
          ∧ subMicro i { s with opGeom := x } = .fin .ok t ∧ u = startSub (s.sub + 1) j t) := by
  rcases sequencerStep_cases h with ⟨hu, -⟩ | ⟨k, hb, hk, he⟩
  · exact .inl hu
  refine .inr ?_
  have howner := hc.owner hb
  have hcur := opcode_of_instrOfOpcode hk
  by_cases hbring : k = .bringup
  · subst hbring
    have hcur : s.curCmd = 0x08#8 := hcur.symm
    rw [activeCommand, if_pos hcur] at howner
    have hfsm : s.fsm ≠ .idle := fun hf => by simp [hc.idle.mpr hf] at hb
    obtain ⟨i, hi⟩ := Option.ne_none_iff_exists'.mp (mt microOwner_eq_none.mp hfsm)
    have hsub := howner.symm.trans hi
    rw [exec_bringup_sequencer s ht] at he
    injection he with he
    have hx : (readOperand i s).opGeom = s.opGeom ∨ s.fsm = firstMicro i :=
      (em (s.fsm = firstMicro i)).symm.imp_left fun hf => by rw [readOperand_of_ne hf]
    refine ⟨i, (readOperand i s).opGeom, hb, hi, hx, ?_⟩
    rcases bringupMicro_cases s i hsub with ⟨t, hm, hbm⟩ | ⟨r, t, hm, -, hbm⟩ | ⟨t, hm, -, hbm⟩ | ⟨t, j, hm, hj, hbm⟩ <;>
      rw [hbm] at he
    · exact .inl (by rw [← he, ← hm]; rfl)
    · exact .inl (by rw [← he, ← hm]; rfl)
    · exact .inl (by rw [← he, ← hm]; rfl)
    · exact .inr ⟨t, j, hcur, hsub, hj, hm, he.symm⟩
  · have hne : s.curCmd ≠ 0x08#8 := fun e => hbring (Option.some.inj (hk.symm.trans (e ▸ rfl)))
    rw [activeCommand, if_neg hne, hk] at howner
    rw [exec_sequencer k s hbring ht] at he
    injection he with he
    exact ⟨k, s.opGeom, hb, howner, .inl rfl, .inl he.symm⟩

/-! ## Every agent keeps the pipeline invariant -/

/-- A micro-step of the command FSM belongs to keeps the invariant. -/
theorem PipelineInv.subMicro {s : State} {i : Instr} (h : PipelineInv s) (hb : s.busy = true)
    (ho : microOwner s.fsm = some i) : PipelineInv (microAlone (subMicro i s)) := by
  obtain ⟨hst, hmf⟩ := subMicro_facts h.stageFacts h.microFacts ho
  refine .of_parts ?_ hst hmf
  have hfatal : s.fatal ≠ true := fun hf => by simp [(h.seq.fatalEnd hf).1] at hb
  obtain ⟨hdone, hres⟩ := h.seq.running hb
  cases hm : Machine.subMicro i s with
  | go t =>
    obtain ⟨-, -, hcur, hsub, -, hbusy, hcd, hr, -⟩ := subMicro_keeps (.inl hm)
    obtain ⟨hft, ham, hodt, -⟩ := subMicro_go_keeps hm
    have hot := subMicro_go_owner ho hm
    rw [microAlone_go]
    exact
      { idle := ⟨fun e => by simp [hbusy, hb] at e, fun e => by simp [e, microOwner] at hot⟩
        running := fun _ => ⟨hcd.trans hdone, hr.trans hres⟩
        fatalEnd := fun e => absurd (hft ▸ e) hfatal
        owner := fun _ => by
          rw [hot, ← ho, h.seq.owner hb, activeCommand, activeCommand, hcur, hsub]
        bringupOdt := fun _ hc hk => ham.trans (h.bringupOdt hb (hcur ▸ hc) (hsub ▸ hk))
        bringupTiming := fun _ hc hk => by
          rw [ham, hodt]
          exact h.bringupTiming hb (hcur ▸ hc) (hsub ▸ hk) }
  | fin r t =>
    rw [microAlone_fin]
    exact
      { idle := ⟨fun _ => rfl, fun _ => rfl⟩
        running := nofun
        fatalEnd := fun e => ⟨rfl, rfl, (subMicro_end hm).fatal.resolve_left fun hft => hfatal (hft ▸ e)⟩
        owner := nofun, bringupOdt := nofun, bringupTiming := nofun }

/-- The operand latch matters to the invariant only once CFG_ADDRMAP has checked it (R140). -/
theorem PipelineInv.operand {s : State} {i : Instr} {x : BitVec 17} (h : PipelineInv s)
    (hx : x = s.opGeom ∨ s.fsm = firstMicro i) : PipelineInv { s with opGeom := x } := by
  rcases hx with rfl | hf
  · exact h
  · have hlate : microFrom .amMstr s.fsm ≠ true := by rw [hf]; cases i <;> decide
    exact { h with seq := { h.seq with }, geometryChecked := fun hm => absurd hm hlate }

/-- From an idle machine a command whose precondition holds can start, as CUR_CMD or as BRINGUP's sub-command (R106,
R270). -/
theorem PipelineInv.start {s : State} {i : Instr} (h : PipelineInv s) (hidle : s.fsm = .idle) (hfatal : s.fatal = false)
    (hi : i ≠ .bringup) (hp : precondition i s = true) (c : BitVec 8) (x : BitVec 17) (k : Nat)
    (hact : activeCommand { s with curCmd := c, sub := k } = some i)
    (hodt : c = 0x08#8 → k = 2 → s.amDone = true)
    (htim : c = 0x08#8 → k = 3 → s.amDone = true ∧ s.odtDone = true) :
    PipelineInv { s with
      busy := true, cmdDone := false, result := .ok, curCmd := c, fsm := firstMicro i, opGeom := x, sub := k } := by
  have howner := microOwner_firstMicro hi
  refine .of_parts ?_ { h.stageFacts with } ?_
  · exact
      { idle := ⟨nofun, fun e => by rw [show firstMicro i = .idle from e] at howner; cases howner⟩
        running := fun _ => ⟨rfl, rfl⟩
        fatalEnd := fun e => by simp [hfatal] at e
        owner := fun _ => howner.trans hact.symm
        bringupOdt := fun _ => hodt, bringupTiming := fun _ => htim }
  · have hquiet : s.stage ≠ .reset → Quiet s := fun hs => h.quiet (.inl hs) (by simp [hidle])
    cases i <;> simp only [precondition, Bool.and_eq_true, beq_iff_eq, and_assoc] at hp
    case clkInit => exact hquiet
    case phyInit => exact ⟨hp.1, hquiet (hp.1.trans_ne nofun), hp.2⟩
    case bringup => exact absurd rfl hi
    all_goals exact ⟨hp, hquiet (hp.trans_ne nofun)⟩

/-- A CMD write that is rejected on an idle machine changes STATUS and CUR_CMD only (R313). -/
theorem PipelineInv.reject {s : State} (h : PipelineInv s) (hb : s.busy = false) (hfatal : s.fatal = false) (r : Result)
    (opc : BitVec 8) : PipelineInv (endCmd r (accept opc s)) := by
  have hidle := h.seq.idle.mp hb
  refine .of_parts ?_ { h.stageFacts with } fun hs => h.quiet (.inl hs) (by simp [hidle])
  exact
    { idle := ⟨fun _ => rfl, fun _ => rfl⟩
      running := nofun
      fatalEnd := fun e => absurd (hfatal.symm.trans e) nofun
      owner := nofun, bringupOdt := nofun, bringupTiming := nofun }

/-- The invariant does not read GEOM, OVR, the host, the draws or the turns. -/
theorem PipelineInv.frame {s : State} (h : PipelineInv s) (ovr : Bool) (geom : BitVec 17) (host : HostState) (turn : Turn)
    (sched : List Turn) (tick draws : Nat) :
    PipelineInv { s with
      ovr := ovr, geom := geom, host := host, turn := turn, sched := sched, tick := tick, draws := draws } :=
  { h with seq := { h.seq with } }

theorem PipelineInv.passTurn {s : State} (h : PipelineInv s) : PipelineInv (passTurn s) := by
  obtain ⟨turn, sched, tick, e⟩ := passTurn_eq s
  exact e ▸ h.frame s.ovr s.geom s.host turn sched tick s.draws

theorem PipelineInv.issue {s : State} (h : PipelineInv s) (i : Instr) : PipelineInv (issue i s) := by
  rcases issue_cases i s with ⟨-, e⟩ | ⟨-, -, e⟩ | ⟨hf, hb, hp, e⟩ | ⟨hf, hb, -, e⟩ <;> rw [e]
  · exact h
  · exact h.frame true s.geom s.host s.turn s.sched s.tick s.draws
  · have hidle := h.seq.idle.mp hb
    by_cases hi : i = .bringup
    · subst hi
      exact h.start (i := .clkInit) hidle hf nofun rfl 0x08#8 s.opGeom 0 rfl nofun nofun
    · have hne : i.opcode ≠ 0x08#8 := by
        revert hi
        cases i <;> decide
      have hsub : startCommand i (accept i.opcode s) = { startCommand i (accept i.opcode s) with sub := s.sub } := by
        cases i
        case bringup => exact absurd rfl hi
        all_goals rfl
      rw [hsub]
      exact h.start hidle hf hi hp i.opcode (latchedGeom i s) s.sub (by simp [activeCommand, hne])
        (fun e => absurd e hne) (fun e => absurd e hne)
  · exact h.reject hb hf _ _

theorem PipelineInv.issueIllegal {s : State} (h : PipelineInv s) (w : Word) : PipelineInv (issueIllegal w s) := by
  rcases issueIllegal_cases w s with ⟨-, e⟩ | ⟨-, -, e⟩ | ⟨hf, hb, e⟩ <;> rw [e]
  · exact h
  · exact h.frame true s.geom s.host s.turn s.sched s.tick s.draws
  · exact h.reject hb hf _ _

theorem PipelineInv.nextLine {s : State} (h : PipelineInv s) : PipelineInv (nextLine s) :=
  h.frame s.ovr s.geom (Machine.nextLine s).host s.turn s.sched s.tick s.draws

/-- A host write to DRAM is admitted in OPERATIONAL only, where cells may hold bytes (R75, R86). -/
theorem PipelineInv.memWrite {s : State} (h : PipelineInv s) (hop : s.stage = .operational) (off n v : Nat) :
    PipelineInv (memWrite s off n v) := by
  rw [memWrite_eq]
  exact { h with seq := { h.seq with }, dramEmpty := fun hs => absurd hop hs }

/-- The host's moves keep the invariant (R313, R75). -/
theorem PipelineInv.host {s u : State} (h : PipelineInv s) (ht : s.turn = .host) (hu : hostStep s = .next u) :
    PipelineInv u := by
  rcases hostStep_cases ht hu with ⟨i, rfl⟩ | ⟨w, rfl⟩ | ⟨x, rfl⟩ | ⟨off, n, v, hc, rfl⟩ | ⟨hh, d, rfl⟩
  · exact (h.issue i).nextLine
  · exact (h.issueIllegal w).nextLine
  · exact (h.frame s.ovr x s.host s.turn s.sched s.tick s.draws).nextLine
  · obtain ⟨-, -, hop, -⟩ := dramCheck_none hc
    exact (h.memWrite hop off n v).nextLine
  · exact h.frame s.ovr s.geom hh s.turn s.sched s.tick d

/-- The mode logic never leaves NORMAL (R231). -/
theorem opmodeEnabled_not_normal {m : OpMode} {s : State} (h : opmodeEnabled m s = true) : s.ctl.opmode ≠ .normal :=
  fun e => by simp [opmodeEnabled, e] at h

/-- No environment agent undoes what a poll has waited for (R353, R362). -/
theorem PipelineInv.env {s : State} (h : PipelineInv s) (m : EnvMove) : PipelineInv (envStep m s) := by
  have hseq := h.seq
  cases m with
  | pllLock =>
    simp only [envStep, pllStep]
    split
    · exact h
    · exact { h with seq := { hseq with }, pllLocked := fun _ => rfl, clocked := fun hs => ⟨rfl, (h.clocked hs).2⟩ }
  | phyInitDone =>
    simp only [envStep, phyInitStep]
    split
    · exact { h with
        seq := { hseq with }
        phyInitDone := fun _ => rfl
        handshake := fun hs => by
          obtain ⟨haref, hcpl, hsr, hnormal, -⟩ := h.handshake hs
          exact ⟨haref, hcpl, hsr, hnormal, rfl⟩ }
    · exact h
  | opmode o =>
    simp only [envStep, opmodeStep]
    split
    · rename_i hen
      have hne := opmodeEnabled_not_normal hen
      exact { h with
        seq := { hseq with }
        normalSeen := fun hs => absurd (h.normalSeen hs) hne
        handshake := fun hs => by
          obtain ⟨-, -, -, hnormal, -⟩ := h.handshake hs
          exact absurd hnormal hne }
    · exact h
  | mrComplete =>
    simp only [envStep, mrEngineStep]
    split
    · exact { h with seq := { hseq with }, mrQuiet := fun _ _ => rfl }
    · exact h
  | calRespond bits fail readouts =>
    simp only [envStep, calEngineStep]
    split
    · exact { h with seq := { hseq with } }
    · exact h

/-- A block reset leaves an idle machine in STAGE = RESET, of whose environment the invariant says nothing (R341). -/
theorem blockReset_pipelineInv (s : State) : PipelineInv (blockReset s) :=
  .of_parts
    { idle := ⟨fun _ => rfl, fun _ => rfl⟩, running := nofun, fatalEnd := nofun, owner := nofun
      bringupOdt := nofun, bringupTiming := nofun }
    (.of_reset rfl ⟨Nat.zero_le 5, Nat.zero_le 5⟩ rfl)
    (fun hs => absurd rfl hs)

/-- In BRINGUP's order a sub-command that ends OK leaves the next one's precondition (R106, R271). -/
theorem PipelineInv.next_precondition {s t : State} {i j : Instr} (h : PipelineInv s) (hb : s.busy = true)
    (hc : s.curCmd = 0x08#8) (ho : microOwner s.fsm = some i) (hi : subCommands[s.sub]? = some i)
    (hj : subCommands[s.sub + 1]? = some j) (he : MicroEnd i s .ok t) :
    precondition j t = true ∧ (s.sub + 1 = 2 → t.amDone = true)
      ∧ (s.sub + 1 = 3 → t.amDone = true ∧ t.odtDone = true) := by
  have hlt : s.sub < 6 := Nat.lt_of_succ_lt_succ (List.getElem?_eq_some_iff.mp hj).1
  have hcfg := h.cfgStage
  rw [ho] at hcfg
  have hodt := h.bringupOdt hb hc
  have htim := h.bringupTiming hb hc
  generalize s.sub = k at hi hj hlt hodt htim ⊢
  interval_cases k <;> cases hi <;> cases hj
  · obtain ⟨-, -, hstage⟩ := he
    exact ⟨beq_iff_eq.mpr hstage, nofun, nofun⟩
  · obtain ⟨⟨-, -, ham⟩ | ⟨hr, -⟩, hstage⟩ := he
    · exact ⟨beq_iff_eq.mpr (hstage.trans (hcfg (.inl rfl))), fun _ => ham, nofun⟩
    · cases hr
  · obtain ⟨-, -, hstage, ham, hod⟩ := he
    exact ⟨beq_iff_eq.mpr (hstage.trans (hcfg (.inr (.inl rfl)))), nofun, fun _ => ⟨ham.trans (hodt rfl), hod⟩⟩
  · obtain ⟨-, -, hstage, ham, hod, htd⟩ := he
    obtain ⟨hamS, hodS⟩ := htim rfl
    have hclocked := hstage.trans (hcfg (.inr (.inr rfl)))
    exact ⟨by simp [precondition, hclocked, ham, hamS, hod, hodS, htd], nofun, nofun⟩
  · obtain ⟨-, -, hstage⟩ := he
    exact ⟨beq_iff_eq.mpr hstage, nofun, nofun⟩
  · obtain ⟨-, -, hstage⟩ := he
    exact ⟨beq_iff_eq.mpr hstage, nofun, nofun⟩

/-- The sequencer's moves keep the invariant (R22, R270). -/
theorem PipelineInv.sequencer {s u : State} (h : PipelineInv s) (ht : s.turn = .sequencer)
    (hu : sequencerStep s = .next u) : PipelineInv u := by
  rcases sequencerStep_micro h.controlFacts ht hu with rfl | ⟨i, x, hb, ho, hx, hstep⟩
  · exact h
  have hop := h.operand hx
  have hsub := hop.subMicro hb ho
  rcases hstep with rfl | ⟨t, j, hc, hi, hj, hm, rfl⟩
  · exact hsub
  · rw [hm, microAlone_fin] at hsub
    obtain ⟨-, -, hcur, -, -, hbusy, hcd, hr, -⟩ := subMicro_keeps (.inr ⟨_, hm⟩)
    obtain ⟨hdone, hres⟩ := h.seq.running hb
    obtain ⟨hp, hodt, htim⟩ := hop.next_precondition hb hc ho hi hj (subMicro_end hm)
    have hjb : j ≠ .bringup := fun e => by
      have := List.mem_of_getElem? hj
      simp [e, subCommands] at this
    have hf : t.fatal = false := Bool.eq_false_iff.mpr fun hf => by
      have hci := (hsub.seq.fatalEnd hf).2.2
      simp at hci
    have hstart := hsub.start rfl hf hjb (by cases j <;> exact hp) t.curCmd t.opGeom (s.sub + 1)
      (by rw [activeCommand, if_pos (hcur.trans hc)]; exact hj) (fun _ => hodt) (fun _ => htim)
    have e : startSub (s.sub + 1) j t
        = { startSub (s.sub + 1) j t with busy := true, cmdDone := false, result := .ok } := by
      rw [← hbusy.trans hb, ← hcd.trans hdone, ← hr.trans hres]; rfl
    rw [e]
    exact hstart

/-- Settles O54: each agent's move keeps the invariant, and so does passing the turn. -/
theorem stepKeepsPipelineInv : Obligations.StepKeepsPipelineInv := by
  intro s t h hstep
  rcases step_cases hstep with ⟨ht, u, rfl, hu⟩ | ⟨m, -, rfl⟩ | ⟨-, rfl⟩ | ⟨ht, u, rfl, hu⟩
  · exact (h.sequencer ht hu).passTurn
  · exact (h.env m).passTurn
  · exact (blockReset_pipelineInv s).passTurn
  · exact (h.host ht hu).passTurn

/-! ## STAGE and the board across a step -/

/-- Out of the hold step no micro-step runs in OPERATIONAL (R106). -/
theorem MicroFacts.ckHold_of_operational {s : State} {m : Micro} (h : MicroFacts s m) (ho : microOwner m ≠ none)
    (hs : s.stage = .operational) : m = .ckHold := by
  cases m <;> simp_all [MicroFacts, microOwner]

/-- Of the commands that end, RD_CAL alone enters OPERATIONAL, at its last micro-step (R250). -/
theorem MicroEnd.calDerive_of_operational {i : Instr} {s t : State} {r : Result} (h : MicroEnd i s r t)
    (hs : s.stage ≠ .operational) (ht : t.stage = .operational) : s.fsm = .calDerive := by
  cases i <;> simp_all [MicroEnd]

/-- A micro-step enters OPERATIONAL only at the one that derives the base (R250). -/
theorem subMicro_enters_operational {i : Instr} {s : State} (hs : s.stage ≠ .operational)
    (ht : (microAlone (subMicro i s)).stage = .operational) : s.fsm = .calDerive := by
  cases hm : subMicro i s with
  | go t =>
    rw [hm, microAlone_go] at ht
    obtain ⟨-, -, -, -, hstage | ⟨-, hstage⟩⟩ := subMicro_go_keeps hm
    · exact absurd (hstage.symm.trans ht) hs
    · cases hstage.symm.trans ht
  | fin r t =>
    rw [hm, microAlone_fin, endCmd_stage] at ht
    exact (subMicro_end hm).calDerive_of_operational hs ht

@[simp] theorem issue_stage (i : Instr) (s : State) : (issue i s).stage = s.stage := by rw [issue_eq]

@[simp] theorem issue_board (i : Instr) (s : State) : (issue i s).board = s.board := by rw [issue_eq]

/-- What the write of an illegal word can change: STATUS fields, CUR_CMD and FSM (R313). -/
theorem issueIllegal_eq (w : Word) (s : State) :
    issueIllegal w s = { s with
      busy := (issueIllegal w s).busy, cmdDone := (issueIllegal w s).cmdDone, result := (issueIllegal w s).result
      ovr := (issueIllegal w s).ovr, curCmd := (issueIllegal w s).curCmd, fsm := (issueIllegal w s).fsm } := by
  rcases issueIllegal_cases w s with ⟨-, h⟩ | ⟨-, -, h⟩ | ⟨-, -, h⟩
  · rw [h]
  · rw [h]
  · rw [h]
    rfl

/-- No access of the host changes STAGE or the board. -/
theorem hostStep_keeps {s u : State} (ht : s.turn = .host) (h : hostStep s = .next u) :
    u.stage = s.stage ∧ u.board = s.board := by
  rcases hostStep_cases ht h with ⟨i, rfl⟩ | ⟨w, rfl⟩ | ⟨x, rfl⟩ | ⟨off, n, v, -, rfl⟩ | ⟨hh, d, rfl⟩
  · simp
  · rw [nextLine_stage, nextLine_board, issueIllegal_eq]
    exact ⟨rfl, rfl⟩
  · exact ⟨rfl, rfl⟩
  · simp
  · exact ⟨rfl, rfl⟩

/-- No environment agent changes STAGE or the board. -/
theorem envStep_keeps (m : EnvMove) (s : State) : (envStep m s).stage = s.stage ∧ (envStep m s).board = s.board := by
  obtain ⟨p, c, y, d, e⟩ := envStep_eq m s
  rw [e]
  exact ⟨rfl, rfl⟩

/-- A sequencer's move enters OPERATIONAL only at 0x85 and leaves it only at 0x10 (R30). -/
theorem sequencerStep_operational {s u : State} (h : PipelineInv s) (ht : s.turn = .sequencer)
    (hu : sequencerStep s = .next u) :
    (s.stage ≠ .operational → u.stage = .operational → s.fsm = .calDerive)
      ∧ (s.stage = .operational → u.stage ≠ .operational → s.fsm = .ckHold) := by
  rcases sequencerStep_micro h.controlFacts ht hu with rfl | ⟨i, x, -, ho, -, hstep⟩
  · exact ⟨fun hs ht => absurd ht hs, fun hs ht => absurd hs ht⟩
  refine ⟨fun hs hop => ?_, fun hs _ => h.microFacts.ckHold_of_operational (by simp [ho]) hs⟩
  rcases hstep with rfl | ⟨t, j, -, -, -, hm, rfl⟩
  · exact subMicro_enters_operational (s := { s with opGeom := x }) hs hop
  · exact (subMicro_end hm).calDerive_of_operational hs hop

/-- Settles O49: of all agents' moves only the sequencer's and the block reset change STAGE. -/
theorem operationalOnlyThroughCalibration : Obligations.OperationalOnlyThroughCalibration := by
  intro s t h hstep
  rcases step_cases hstep with ⟨ht, u, rfl, hu⟩ | ⟨m, -, rfl⟩ | ⟨ht, rfl⟩ | ⟨ht, u, rfl, hu⟩ <;>
    rw [passTurn_stage]
  · obtain ⟨henter, hleave⟩ := sequencerStep_operational h ht hu
    exact ⟨fun hs hop => ⟨ht, henter hs hop⟩, fun hs hop => .inl ⟨ht, hleave hs hop⟩⟩
  · rw [(envStep_keeps m s).1]
    exact ⟨fun hs hop => absurd hop hs, fun hs hop => absurd hs hop⟩
  · exact ⟨fun _ hop => (nomatch hop), fun _ _ => .inr ht⟩
  · rw [(hostStep_keeps ht hu).1]
    exact ⟨fun hs hop => absurd hop hs, fun hs hop => absurd hs hop⟩

theorem subMicro_board (i : Instr) (s : State) : (microAlone (subMicro i s)).board = s.board := by
  cases hm : subMicro i s with
  | go t =>
    obtain ⟨-, -, -, -, -, -, -, -, hb, -⟩ := subMicro_keeps (.inl hm)
    exact hb
  | fin r t =>
    obtain ⟨-, -, -, -, -, -, -, -, hb, -⟩ := subMicro_keeps (.inr ⟨r, hm⟩)
    exact hb

theorem bringupMicro_board (s : State) : (microAlone (bringupMicro s)).board = s.board := by
  cases hi : subCommands[s.sub]? with
  | none => simp only [bringupMicro, hi, microAlone_go]
  | some i =>
    have hb := subMicro_board i (readOperand i s)
    rcases bringupMicro_cases s i hi with ⟨t, hm, e⟩ | ⟨r, t, hm, -, e⟩ | ⟨t, hm, -, e⟩ | ⟨t, j, hm, -, e⟩ <;>
      rw [hm] at hb <;> rw [e] <;> exact hb

/-- No instruction writes the board, in either agent's hands (R42). -/
theorem exec_board {i : Instr} {s u : State} (h : exec i s = .next u) : u.board = s.board := by
  by_cases ht : s.turn = .sequencer
  · by_cases hi : i = .bringup
    · rw [hi, exec_bringup_sequencer s ht] at h
      injection h with h
      exact h ▸ bringupMicro_board s
    · rw [exec_sequencer i s hi ht] at h
      injection h with h
      exact h ▸ subMicro_board i s
  · rw [exec_issue i s ht] at h
    injection h with h
    exact h ▸ issue_board i s

/-- Settles O51: no agent's move, and no passing of the turn, writes the board. -/
theorem boardIsNeverWritten : Obligations.BoardIsNeverWritten := by
  intro s t hstep
  rcases step_cases hstep with ⟨-, u, rfl, hu⟩ | ⟨m, -, rfl⟩ | ⟨-, rfl⟩ | ⟨ht, u, rfl, hu⟩ <;>
    rw [passTurn_board]
  · rcases sequencerStep_cases hu with ⟨rfl, -⟩ | ⟨i, -, -, he⟩
    · rfl
    · exact exec_board he
  · exact (envStep_keeps m s).2
  · rfl
  · exact (hostStep_keeps ht hu).2

/-! ## GEOM and a running single command -/

/-- At a micro-step of another command a meaning holds (log 17). -/
theorem subMicro_of_not_owner {i : Instr} {s : State} (ho : microOwner s.fsm ≠ some i) : subMicro i s = .go s := by
  cases i <;> simp only [subMicro, clkInitMicro, cfgOdtMicro, cfgAddrmapMicro, cfgTimingMicro, phyInitMicro,
    dfiInitMicro, rdCalMicro]
  all_goals
    split <;> simp_all [microOwner]

/-- A micro-step of its own command neither reads nor writes GEOM (R29). -/
theorem subMicro_geom_of_owner {i : Instr} {s : State} (x : BitVec 17) (ho : microOwner s.fsm = some i) :
    microAlone (subMicro i { s with geom := x }) = { microAlone (subMicro i s) with geom := x } := by
  cases hf : s.fsm <;> rw [hf] at ho <;> cases ho <;>
    simp only [subMicro, clkInitMicro, cfgOdtMicro, cfgAddrmapMicro, cfgTimingMicro, phyInitMicro, dfiInitMicro,
      rdCalMicro, hf]
  case ckLock => split <;> simp only [microAlone_goTo, microAlone_go, hf]
  case amValidate => split <;> rfl
  case phyLp4 => split <;> rfl
  case phyCadly => split <;> rfl
  case phyBdly0 => split <;> rfl
  case phyBdly1 => split <;> rfl
  case dfiWaitPhy => split <;> simp only [microAlone_goTo, microAlone_go, hf]
  case dfiWaitNormal =>
    split
    · split <;> rfl
    · simp only [microAlone_go, hf]
  case dfiMrwSetup =>
    split
    · rfl
    · simp only [microAlone_go, hf]
  case dfiMrwPoll =>
    split
    · simp only [microAlone_go, hf]
    · split <;> rfl
  case dfiVendor => split <;> rfl
  case calPoll =>
    rw [show calPollEnds { s with fsm := .calPoll, geom := x } = calPollEnds s from rfl]
    split
    · rfl
    · simp only [microAlone_go, hf]
  case calUntrig =>
    split
    · split <;> rfl
    · split <;> rfl
  all_goals rfl

/-- Replacing GEOM commutes with every micro-step of a single command (R29). -/
theorem subMicro_geom (i : Instr) (s : State) (x : BitVec 17) :
    microAlone (subMicro i { s with geom := x }) = { microAlone (subMicro i s) with geom := x } := by
  by_cases ho : microOwner s.fsm = some i
  · exact subMicro_geom_of_owner x ho
  · rw [subMicro_of_not_owner ho, subMicro_of_not_owner (s := { s with geom := x }) ho]
    rfl

/-- Settles O40: on the sequencer's turn a single command is its micro-step. -/
theorem runningCommandIgnoresGeom : Obligations.RunningCommandIgnoresGeom := by
  intro i s t x hi ht he
  rw [exec_sequencer i s hi ht] at he
  injection he with he
  rw [exec_sequencer i { s with geom := x } hi ht, subMicro_geom, he]

/-! ## The host's window accesses -/

/-- On the host's turn a step is its next line. -/
theorem step_hostLine {s : State} {l : HostLine} (ht : s.turn = .host) (hr : s.host.ret = none)
    (hl : s.host.prog[s.host.pc]? = some l) : step s = onNext (hostLine l s) passTurn := by
  simp only [step, takeTurn, ht, hostStep, hr, hl]

theorem hostLine_rd {n : Nat} {off : BitVec 8} (s : State) (d : Nat) (h : n = 4 ∧ off.toNat % 4 = 0) :
    hostLine (.rd n off d) s = .next (nextLine (assignTemp d (readBlockReg s off).toNat s)) :=
  if_pos ((windowAccessOk_iff n off).mpr h)

theorem hostLine_rd_bad {n : Nat} {off : BitVec 8} (s : State) (d : Nat) (h : ¬(n = 4 ∧ off.toNat % 4 = 0)) :
    hostLine (.rd n off d) s = .fault .hostBadAccess :=
  if_neg (mt (windowAccessOk_iff n off).mp h)

/-- A write to a register but CMD stores GEOM's bits or is ignored (R25, R27). -/
theorem hostWrite_of_ne_cmd {n : Nat} {off : BitVec 8} (w : Word) (s : State) (h : n = 4 ∧ off.toNat % 4 = 0)
    (hcmd : off ≠ 0x00#8) :
    hostWrite n off w s = .next (if off = 0x08#8 then { s with geom := w.extractLsb' 0 17 } else s) := by
  rw [hostWrite, if_pos ((windowAccessOk_iff n off).mpr h), if_neg hcmd]
  split <;> rfl

theorem hostWrite_bad {n : Nat} {off : BitVec 8} (w : Word) (s : State) (h : ¬(n = 4 ∧ off.toNat % 4 = 0)) :
    hostWrite n off w s = .fault .hostBadAccess :=
  if_neg (mt (windowAccessOk_iff n off).mp h)

/-- Bits [16:0] of a value's low 32 bits are its low 17 bits. -/
theorem extractLsb'_ofNat_geom (v : Nat) : (BitVec.ofNat 32 v).extractLsb' 0 17 = BitVec.ofNat 17 v := by
  apply BitVec.eq_of_toNat_eq
  simp only [BitVec.extractLsb'_toNat, BitVec.toNat_ofNat, Nat.shiftRight_zero]
  exact Nat.mod_mod_of_dvd v (pow_dvd_pow 2 (by decide))

/-- Settles O8: reads by offset, then writes to GEOM, ignored writes and bad accesses. -/
theorem blockWindowAccesses : Obligations.BlockWindowAccesses := by
  intro s n off e d ht hr
  refine ⟨fun hl => ⟨fun hok => ?_, fun hbad => ?_⟩, fun hl => ⟨?_, ?_, fun hbad => ?_⟩⟩ <;>
    rw [step_hostLine ht hr hl]
  · rw [hostLine_rd s d hok]
    rfl
  · rw [hostLine_rd_bad s d hbad]
    rfl
  · rintro rfl rfl
    rw [hostLine, hostWrite_of_ne_cmd _ s ⟨rfl, rfl⟩ (by decide), if_pos rfl, extractLsb'_ofNat_geom]
    rfl
  · intro hn halign hcmd hgeom
    rw [hostLine, hostWrite_of_ne_cmd _ s ⟨hn, halign⟩ hcmd, if_neg hgeom]
    rfl
  · rw [hostLine, hostWrite_bad _ s hbad]
    rfl

/-! ## The GEOM word -/

/-- The packed fields do not overlap, so that packing is a sum (R110). -/
theorem packGeometry_eq_sum {g : Geometry} (hc : g.cols < 16) (hb : g.banks < 16) (hg : g.bg < 4) (hr : g.rows < 32)
    (hk : g.rankw < 2) :
    packGeometry g = g.cols + g.banks * 2 ^ 4 + g.bg * 2 ^ 8 + g.rows * 2 ^ 10 + g.rankw * 2 ^ 15 + g.half * 2 ^ 16 := by
  have pack {lo i : Nat} (hi : Nat) (h : lo < 2 ^ i) : lo ||| hi <<< i = lo + hi * 2 ^ i := by
    rw [Nat.or_comm, ← Nat.shiftLeft_add_eq_or_of_lt h, Nat.shiftLeft_eq, Nat.add_comm]
  unfold packGeometry
  rw [pack g.banks (by omega), pack g.bg (by omega), pack g.rows (by omega), pack g.rankw (by omega),
    pack g.half (by omega)]

/-- Settles O9: each field is a digit of the packed sum. -/
theorem geometryWordRoundTrip : Obligations.GeometryWordRoundTrip := by
  intro g hc hb hg hr hk hh
  have hsum := packGeometry_eq_sum hc hb hg hr hk
  refine ⟨by omega, ?_⟩
  obtain ⟨cols, banks, bg, rows, rankw, half⟩ := g
  simp only [geomFields, BitVec.extractLsb'_toNat, BitVec.toNat_ofNat, Nat.shiftRight_eq_div_pow,
    Geometry.mk.injEq, hsum] at hc hb hg hr hk hh ⊢
  omega

/-! ## The STATUS word -/

/-- The STATUS word with the widths of its fields kept apart. -/
def statusFields (s : State) : BitVec (4 + 4 + 8 + 1 + 1 + 1 + 3 + 1 + 1 + 3 + 3 + 1 + 1) :=
  0#4 ++ BitVec.ofNat 4 s.attempts ++ microCode s.fsm ++ BitVec.ofBool s.timDone ++ BitVec.ofBool s.odtDone
    ++ BitVec.ofBool s.amDone ++ stageCode s.stage ++ BitVec.ofBool s.ovr ++ BitVec.ofBool s.fatal ++ 0#3
    ++ resultCode s.result ++ BitVec.ofBool s.cmdDone ++ BitVec.ofBool s.busy

theorem statusWord_eq_statusFields (s : State) : statusWord s = statusFields s := rfl

/-- The one-bit fields of STATUS (R24). -/
theorem statusFields_bits (s : State) :
    (statusFields s).getLsbD 0 = s.busy ∧ (statusFields s).getLsbD 1 = s.cmdDone
      ∧ (statusFields s).getLsbD 8 = s.fatal ∧ (statusFields s).getLsbD 9 = s.ovr
      ∧ (statusFields s).getLsbD 13 = s.amDone ∧ (statusFields s).getLsbD 14 = s.odtDone
      ∧ (statusFields s).getLsbD 15 = s.timDone := by
  simp only [statusFields, BitVec.getLsbD_append]
  simp

/-- The coded fields of STATUS and its reserved bits (R24). -/
theorem statusFields_codes (s : State) :
    (statusFields s).extractLsb' 2 3 = resultCode s.result ∧ (statusFields s).extractLsb' 5 3 = 0
      ∧ (statusFields s).extractLsb' 10 3 = stageCode s.stage ∧ (statusFields s).extractLsb' 16 8 = microCode s.fsm
      ∧ (statusFields s).extractLsb' 24 4 = BitVec.ofNat 4 s.attempts ∧ (statusFields s).extractLsb' 28 4 = 0 := by
  simp (disch := decide) only [statusFields, BitVec.extractLsb'_append_eq_of_le, BitVec.extractLsb'_append_eq_of_add_le,
    Nat.reduceSub, BitVec.extractLsb'_eq_self]
  simp

/-- Settles O7: the fields by position, then each code by its value. -/
theorem statusWordFields : Obligations.StatusWordFields := by
  intro s
  obtain ⟨hbusy, hdone, hfatal, hovr, ham, hodt, htim⟩ := statusFields_bits s
  obtain ⟨hresult, hres5, hstage, hfsm, hatt, hres28⟩ := statusFields_codes s
  rw [statusWord_eq_statusFields]
  refine ⟨hbusy, hdone, ?_, hres5, hfatal, hovr, ?_, ham, hodt, htim, ?_, hatt, hres28⟩
  · rw [hresult]
    cases s.result <;> decide
  · rw [hstage]
    cases s.stage <;> decide
  · rw [hfsm]
    cases s.fsm <;> decide

end Sys2Proof.Machine

namespace Sys2Proof.Machine

/-! SUPPORT. The data path's statements (20_memory.md section 3): what every agent's move does to the device's cells,
the host's DRAM accesses, the order of the bytes, and the storage an offset reaches. -/

/-! ## The device's cells across a step -/

/-- Everything an instruction can do, in either agent's hands (R22, R313). -/
theorem exec_cases {i : Instr} {s u : State} (h : exec i s = .next u) :
    (s.turn ≠ .sequencer ∧ u = issue i s)
    ∨ (s.turn = .sequencer ∧ i ≠ .bringup ∧ u = microAlone (subMicro i s))
    ∨ (s.turn = .sequencer ∧ i = .bringup ∧ u = microAlone (bringupMicro s)) := by
  by_cases ht : s.turn = .sequencer
  · by_cases hi : i = .bringup
    · rw [hi, exec_bringup_sequencer s ht] at h
      injection h with h
      exact .inr (.inr ⟨ht, hi, h.symm⟩)
    · rw [exec_sequencer i s hi ht] at h
      injection h with h
      exact .inr (.inl ⟨ht, hi, h.symm⟩)
  · rw [exec_issue i s ht] at h
    injection h with h
    exact .inl ⟨ht, h.symm⟩

@[simp] theorem issue_dram (i : Instr) (s : State) : (issue i s).dram = s.dram := by rw [issue_eq]

@[simp] theorem issueIllegal_dram (w : Word) (s : State) : (issueIllegal w s).dram = s.dram := by rw [issueIllegal_eq]

@[simp] theorem envStep_dram (m : EnvMove) (s : State) : (envStep m s).dram = s.dram := by
  obtain ⟨p, c, y, d, e⟩ := envStep_eq m s
  rw [e]

/-- A micro-step stores nothing to DRAM: CLK_INIT's hold step forgets the cells, every other keeps them (R86, R124). -/
theorem subMicro_dram (i : Instr) (s : State) :
    (microAlone (subMicro i s)).dram = s.dram ∨ s.fsm = .ckHold ∧ (microAlone (subMicro i s)).dram = [] := by
  by_cases ho : microOwner s.fsm = some i
  · cases hf : s.fsm <;> rw [hf] at ho <;> cases ho <;>
      simp only [subMicro, clkInitMicro, cfgOdtMicro, cfgAddrmapMicro, cfgTimingMicro, phyInitMicro, dfiInitMicro,
        rdCalMicro, hf]
    case pos.ckHold => exact .inr ⟨trivial, rfl⟩
    all_goals
      left
      repeat' split
      all_goals rfl
  · exact .inl (by rw [subMicro_of_not_owner ho, microAlone_go])

/-- A micro-step of BRINGUP is its sub-command's, with the end of a sub-command and the start of the next (R270). -/
theorem bringupMicro_dram (s : State) :
    (microAlone (bringupMicro s)).dram = s.dram ∨ s.fsm = .ckHold ∧ (microAlone (bringupMicro s)).dram = [] := by
  cases hi : subCommands[s.sub]? with
  | none => exact .inl (by simp only [bringupMicro, hi, microAlone_go])
  | some i =>
    have hd := subMicro_dram i (readOperand i s)
    rcases bringupMicro_cases s i hi with ⟨t, hm, e⟩ | ⟨r, t, hm, -, e⟩ | ⟨t, hm, -, e⟩ | ⟨t, j, hm, -, e⟩ <;>
      rw [hm] at hd <;> rw [e] <;> exact hd

/-- No instruction stores to DRAM, in either agent's hands: the cells stay or are forgotten. -/
theorem exec_dram {i : Instr} {s u : State} (h : exec i s = .next u) :
    u.dram = s.dram ∨ s.fsm = .ckHold ∧ u.dram = [] := by
  rcases exec_cases h with ⟨-, rfl⟩ | ⟨-, -, rfl⟩ | ⟨-, -, rfl⟩
  · exact .inl (issue_dram i s)
  · exact subMicro_dram i s
  · exact bringupMicro_dram s

theorem sequencerStep_wf {s u : State} (hwf : Memory.wf s.dram) (h : sequencerStep s = .next u) :
    Memory.wf u.dram := by
  rcases sequencerStep_cases h with ⟨rfl, -⟩ | ⟨i, -, -, he⟩
  · exact hwf
  · rcases exec_dram he with hd | ⟨-, hd⟩ <;> rw [hd]
    · exact hwf
    · exact List.Pairwise.nil

/-- Of the host's lines a DRAM write alone changes the cells. -/
theorem hostStep_wf {s u : State} (ht : s.turn = .host) (hwf : Memory.wf s.dram) (h : hostStep s = .next u) :
    Memory.wf u.dram := by
  rcases hostStep_cases ht h with ⟨i, rfl⟩ | ⟨w, rfl⟩ | ⟨x, rfl⟩ | ⟨off, n, v, -, rfl⟩ | ⟨hh, d, rfl⟩
  · rwa [nextLine_dram, issue_dram]
  · rwa [nextLine_dram, issueIllegal_dram]
  · exact hwf
  · exact memWrite_wf s off n v hwf
  · exact hwf

/-- Settles O52: a host write keeps the order of the addresses, a reset leaves no address, and no other move stores. -/
theorem stepKeepsMemoryCanonical : Obligations.StepKeepsMemoryCanonical := by
  intro s t hwf hstep
  rcases step_cases hstep with ⟨-, u, rfl, hu⟩ | ⟨m, -, rfl⟩ | ⟨-, rfl⟩ | ⟨ht, u, rfl, hu⟩ <;>
    rw [passTurn_dram]
  · exact sequencerStep_wf hwf hu
  · rwa [envStep_dram]
  · exact List.Pairwise.nil
  · exact hostStep_wf ht hwf hu

/-! ## The host's DRAM accesses -/

/-- Bytes per word: 2 on a half bus, 4 on a full one (R76). -/
theorem two_pow_busShift (half : Nat) : 2 ^ busShift half = if half = 1 then 2 else 4 := by
  unfold busShift
  split <;> rfl

/-- Width and alignment come first (R74, R311). -/
theorem dramCheck_misaligned {s : State} {off n : Nat} (h : ¬((n = 1 ∨ n = 2 ∨ n = 4 ∨ n = 8) ∧ off % n = 0)) :
    dramCheck s off n = some .dramMisaligned :=
  if_pos (not_and_or.mp h)

theorem dramCheck_of_widthOk {s : State} {off n : Nat} (h : (n = 1 ∨ n = 2 ∨ n = 4 ∨ n = 8) ∧ off % n = 0) :
    dramCheck s off n = if s.stage ≠ .operational then some .dramNotReady
      else if capacity (geomFields s.ag) < off + n ∨ s.board.dramWindow < off + n then some .dramRange else none :=
  if_neg fun hbad => hbad.elim (· h.1) (· h.2)

/-- Readiness comes second (R75, R311). -/
theorem dramCheck_notReady {s : State} {off n : Nat} (h : (n = 1 ∨ n = 2 ∨ n = 4 ∨ n = 8) ∧ off % n = 0)
    (hs : s.stage ≠ .operational) : dramCheck s off n = some .dramNotReady := by
  rw [dramCheck_of_widthOk h, if_pos hs]

/-- The range comes last (R76, R311). -/
theorem dramCheck_range {s : State} {off n : Nat} (h : (n = 1 ∨ n = 2 ∨ n = 4 ∨ n = 8) ∧ off % n = 0)
    (hs : s.stage = .operational)
    (hr : ¬(off + n ≤ capacity (geomFields s.ag) ∧ off + n ≤ s.board.dramWindow)) :
    dramCheck s off n = some .dramRange := by
  rw [dramCheck_of_widthOk h, if_neg (not_not.mpr hs), if_pos (by omega)]

theorem dramCheck_admitted {s : State} {off n : Nat} (h : (n = 1 ∨ n = 2 ∨ n = 4 ∨ n = 8) ∧ off % n = 0)
    (hs : s.stage = .operational)
    (hr : off + n ≤ capacity (geomFields s.ag) ∧ off + n ≤ s.board.dramWindow) : dramCheck s off n = none := by
  rw [dramCheck_of_widthOk h, if_neg (not_not.mpr hs), if_neg (by omega)]

/-- An access of the host whose check decides between a fault and a next state `t`, as a step: the faults in their order
of priority, then `t` (R311). -/
theorem dramAccess_outcomes {s t : State} {off n : Nat}
    (hfault : ∀ f, dramCheck s off n = some f → step s = .fault f)
    (hnext : dramCheck s off n = none → step s = .next t) :
    let widthOk := (n = 1 ∨ n = 2 ∨ n = 4 ∨ n = 8) ∧ off % n = 0
    let g := geomFields s.ag
    let cap := 2 ^ (g.cols + g.bg + g.banks + g.rows + g.rankw) * (if g.half = 1 then 2 else 4)
    let inRange := off + n ≤ cap ∧ off + n ≤ s.board.dramWindow
    (¬widthOk → step s = .fault .dramMisaligned)
    ∧ (widthOk → s.stage ≠ .operational → step s = .fault .dramNotReady)
    ∧ (widthOk → s.stage = .operational → ¬inRange → step s = .fault .dramRange)
    ∧ (widthOk → s.stage = .operational → inRange → step s = .next t) := by
  intro widthOk g cap inRange
  have hcap : cap = capacity g := by rw [capacity, two_pow_busShift]
  simp only [inRange, hcap]
  exact ⟨fun h => hfault _ (dramCheck_misaligned h), fun h hs => hfault _ (dramCheck_notReady h hs),
    fun h hs hr => hfault _ (dramCheck_range h hs hr), fun h hs hr => hnext (dramCheck_admitted h hs hr)⟩

/-- Settles O41: the write line and the read line make the same check. -/
theorem dramAccessOutcomes : Obligations.DramAccessOutcomes := by
  intro s n d a v ht hr
  refine ⟨fun hl => dramAccess_outcomes (fun f hf => ?_) (fun hc => ?_),
    fun hl => dramAccess_outcomes (fun f hf => ?_) (fun hc => ?_)⟩ <;>
    rw [step_hostLine ht hr hl]
  · simp only [hostLine, hf, onNext]
  · simp only [hostLine, hc, onNext]
  · simp only [hostLine, hf, onNext]
  · simp only [hostLine, hc, onNext]

/-! ## The order of the bytes -/

/-- After a write to distinct existing cells each offset of it holds its byte of the value (R73, R79). -/
theorem dramStored_memWrite_byte {s : State} {off n i : Nat} (v : Nat)
    (hcell : ∀ i, i < n → cellOf s (off + i) ≠ none)
    (hdistinct : ∀ i j, i < n → j < n → cellOf s (off + i) = cellOf s (off + j) → i = j) (hi : i < n) :
    dramStored (memWrite s off n v) (off + i) = some (byteOf v i) := by
  induction n with
  | zero => exact absurd hi (Nat.not_lt_zero i)
  | succ k ih =>
    simp only [memWrite]
    rcases Nat.lt_succ_iff_lt_or_eq.mp hi with hlt | rfl
    · have hother : cellOf s (off + i) ≠ cellOf s (off + k) := fun he =>
        hlt.ne (hdistinct i k hi (Nat.lt_succ_self k) he)
      rw [dramStored_writeByte_other _ _ (by simpa using hother)]
      exact ih (fun j hj => hcell j (Nat.lt_succ_of_lt hj))
        (fun j l hj hl => hdistinct j l (Nat.lt_succ_of_lt hj) (Nat.lt_succ_of_lt hl)) hlt
    · obtain ⟨c, hc⟩ := Option.ne_none_iff_exists'.mp (hcell i hi)
      exact dramStored_writeByte_same (k := c) _ _ (by simpa using hc) (by simpa using hc)

/-- A read of offsets that hold the bytes of a value returns the value's low bytes (R73). -/
theorem memRead_of_stored {s : State} {off n v : Nat}
    (h : ∀ i, i < n → dramStored s (off + i) = some (byteOf v i)) : memRead s off n = v % 2 ^ (8 * n) := by
  induction n with
  | zero => simp [memRead, Nat.mod_one]
  | succ k ih =>
    have hbyte : (dramReadByte s (off + k) (s.draws + k)).toNat = v / 2 ^ (8 * k) % 2 ^ 8 := by
      simp only [dramReadByte, h k (Nat.lt_succ_self k), byteOf, BitVec.toNat_ofNat]
    rw [memRead, ih fun i hi => h i (Nat.lt_succ_of_lt hi), hbyte, Nat.mul_succ, pow_add, Nat.mod_mul,
      Nat.mul_comm (2 ^ (8 * k))]

/-- Settles O42: what each offset holds after the write, and the read as the sum of those bytes. -/
theorem writeThenReadIsLittleEndian : Obligations.WriteThenReadIsLittleEndian := by
  intro s off n v hcell hdistinct
  have hbyte : ∀ i, i < n → dramStored (memWrite s off n v) (off + i) = some (byteOf v i) := fun _ hi =>
    dramStored_memWrite_byte v hcell hdistinct hi
  exact ⟨hbyte, memRead_of_stored hbyte, dramStored_memWrite_other s off n v⟩

/-! ## The storage an offset reaches -/

/-- No storage: an absent rank, or a lane that a half bus does not wire (R78). -/
theorem deviceCell_eq_none_iff {d : DeviceGeometry} {c : Coords} :
    deviceCell d c = none ↔ d.ranks ≤ c.rank ∨ d.half = 1 ∧ 2 ≤ c.lane := by
  unfold deviceCell
  split
  · simp_all
  · split <;> simp_all

theorem dramWriteByte_of_absent {s : State} {a : Nat} (b : Byte) (h : cellOf s a = none) : dramWriteByte s a b = s := by
  simp only [dramWriteByte, h]

theorem dramReadByte_of_absent {s : State} {a : Nat} (d : Nat) (h : cellOf s a = none) :
    dramReadByte s a d = Config.drawByte d := by
  simp only [dramReadByte, dramStored, h]

/-- Settles O43: such an offset reaches no cell. -/
theorem absentStorageDropsAndDraws : Obligations.AbsentStorageDropsAndDraws := by
  intro s a d b c habsent
  have hcell : cellOf s a = none := deviceCell_eq_none_iff.mpr habsent
  exact ⟨dramWriteByte_of_absent b hcell, dramReadByte_of_absent d hcell⟩

/-! ## The decode through the address map -/

/-- The bounds of a valid geometry (R141). -/
theorem validGeometry_iff (g : Geometry) :
    validGeometry g = true ↔ 8 ≤ g.cols ∧ g.cols ≤ 12 ∧ (g.banks = 2 ∨ g.banks = 3) ∧ g.bg ≤ 2 ∧ 14 ≤ g.rows
      ∧ g.rows ≤ 18 ∧ g.rankw ≤ 1 := by
  simp [validGeometry, and_assoc]

theorem gather_lt (n : Nat) (f : Nat → Bool) : gather n f < 2 ^ n := by
  induction n with
  | zero => exact Nat.one_pos
  | succ k ih =>
    rw [gather, pow_succ]
    split <;> omega

/-- A gathered number determines its bits. -/
theorem gather_inj {n : Nat} {f f' : Nat → Bool} (h : gather n f = gather n f') {j : Nat} (hj : j < n) : f j = f' j := by
  induction n with
  | zero => exact absurd hj (Nat.not_lt_zero j)
  | succ k ih =>
    have hf := gather_lt k f
    have hf' := gather_lt k f'
    have htop : f k = f' k := by
      cases hk : f k <;> cases hk' : f' k <;> simp [gather, hk, hk'] at h ⊢ <;> omega
    rcases Nat.lt_succ_iff_lt_or_eq.mp hj with hlt | rfl
    · exact ih (by simpa [gather, htop] using h) hlt
    · exact htop

/-- The bit a map entry inside its field's width selects (R77, R142). -/
theorem mappedBit_tabulate {n off width j : Nat} (hj : j < width) (hn : width ≤ n) (w : Nat) :
    mappedBit ((tabulate n (allocate off width))[j]?).join w = w.testBit (off + j) := by
  have hentry : (tabulate n (allocate off width))[j]? = some (some (off + j)) := by
    simp [tabulate, allocate, hj, Nat.lt_of_lt_of_le hj hn]
  rw [hentry]
  rfl

/-- The hardwired columns are word-address bits 0 to 2 (R144). -/
theorem columnBit_low (m : AddrMap) {c : Nat} (hc : c < 3) (w : Nat) : columnBit m w c = w.testBit c := if_pos hc

/-- A column of the map stands above the bank groups (R142). -/
theorem columnBit_addrmap {g : Geometry} (hg : g.cols ≤ 12) {c : Nat} (h3 : 3 ≤ c) (hc : c < g.cols) (w : Nat) :
    columnBit (addrmap 3 g) w c = w.testBit (g.bg + c) := by
  rw [columnBit, if_neg (Nat.not_lt.mpr h3), addrmap, mappedBit_tabulate (by omega) (by omega)]
  congr 1
  omega

/-- Two word addresses with the same value of a field agree on the field's positions (R77, R142). -/
theorem testBit_of_gather_eq {n off width u w : Nat} (hn : width ≤ n)
    (h : gather width (fun j => mappedBit ((tabulate n (allocate off width))[j]?).join u)
      = gather width (fun j => mappedBit ((tabulate n (allocate off width))[j]?).join w))
    {p : Nat} (hlo : off ≤ p) (hhi : p < off + width) : u.testBit p = w.testBit p := by
  have hj : p - off < width := by omega
  have hbit := gather_inj h hj
  rwa [mappedBit_tabulate hj hn, mappedBit_tabulate hj hn, Nat.add_sub_cancel' hlo] at hbit

/-- Two offsets with the same coordinates agree on every word-address bit the geometry uses: each position belongs to
the hardwired columns or to one field of the map (R77, R146). -/
theorem decodeOffset_wordBit {g : Geometry} (hg : validGeometry g = true) {a b : Nat}
    (h : decodeOffset (addrmap 3 g) g a = decodeOffset (addrmap 3 g) g b) {p : Nat} (hp : p < hifWidth g) :
    (a / 2 ^ busShift g.half).testBit p = (b / 2 ^ busShift g.half).testBit p := by
  obtain ⟨hcols8, hcols, hbanks, hbgs, -, hrows, hranks⟩ := (validGeometry_iff g).mp hg
  simp only [decodeOffset, Coords.mk.injEq] at h
  obtain ⟨hrank, hbg, hbank, hrow, hcol, -⟩ := h
  generalize a / 2 ^ busShift g.half = u at *
  generalize b / 2 ^ busShift g.half = w at *
  unfold hifWidth at hp
  have hposition : p < 3 ∨ (3 ≤ p ∧ p < 3 + g.bg) ∨ (3 + g.bg ≤ p ∧ p < g.bg + g.cols)
      ∨ (3 + g.bg + (g.cols - 3) ≤ p ∧ p < 3 + g.bg + (g.cols - 3) + g.banks)
      ∨ (3 + g.bg + (g.cols - 3) + g.banks ≤ p ∧ p < 3 + g.bg + (g.cols - 3) + g.banks + g.rows)
      ∨ (g.rankw = 1 ∧ p = 3 + g.bg + (g.cols - 3) + g.banks + g.rows) := by omega
  rcases hposition with hp | ⟨hlo, hhi⟩ | ⟨hlo, hhi⟩ | ⟨hlo, hhi⟩ | ⟨hlo, hhi⟩ | ⟨hone, rfl⟩
  · have hbit := gather_inj hcol (j := p) (by omega)
    rwa [columnBit_low _ hp, columnBit_low _ hp] at hbit
  · exact testBit_of_gather_eq hbgs hbg hlo hhi
  · have hbit := gather_inj hcol (j := p - g.bg) (by omega)
    rwa [columnBit_addrmap hcols (by omega) (by omega), columnBit_addrmap hcols (by omega) (by omega),
      Nat.add_sub_cancel' (by omega)] at hbit
  · exact testBit_of_gather_eq (by omega) hbank hlo hhi
  · exact testBit_of_gather_eq hrows hrow hlo hhi
  · simp only [addrmap, allocate, hone, Nat.lt_one_iff, if_true, mappedBit, Nat.add_zero] at hrank
    revert hrank
    cases u.testBit _ <;> cases w.testBit _ <;> simp

/-- R77, R146: below the capacity an offset is determined by its coordinates. -/
theorem decodeOffset_inj {g : Geometry} (hg : validGeometry g = true) {a b : Nat} (ha : a < capacity g)
    (hb : b < capacity g) (h : decodeOffset (addrmap 3 g) g a = decodeOffset (addrmap 3 g) g b) : a = b := by
  have word_lt {c : Nat} (hc : c < capacity g) : c / 2 ^ busShift g.half < 2 ^ hifWidth g :=
    Nat.div_lt_of_lt_mul (by rwa [Nat.mul_comm])
  have hword : a / 2 ^ busShift g.half = b / 2 ^ busShift g.half := by
    refine Nat.eq_of_testBit_eq fun p => ?_
    rcases Nat.lt_or_ge p (hifWidth g) with hp | hp
    · exact decodeOffset_wordBit hg h hp
    · have hpow := Nat.pow_le_pow_right Nat.two_pos hp
      rw [Nat.testBit_lt_two_pow ((word_lt ha).trans_le hpow), Nat.testBit_lt_two_pow ((word_lt hb).trans_le hpow)]
  have hlane : a % 2 ^ busShift g.half = b % 2 ^ busShift g.half := congrArg Coords.lane h
  rw [← Nat.div_add_mod a (2 ^ busShift g.half), hword, hlane, Nat.div_add_mod]

/-! ## A device that covers the configuration -/

/-- The coordinates lie inside a device: its rank is there, its lane is wired and no field is cut (R78). -/
structure Coords.Inside (d : DeviceGeometry) (c : Coords) : Prop where
  rank : c.rank < d.ranks
  wired : d.half = 1 → c.lane < 2
  bg : c.bg < 2 ^ d.bg
  bank : c.bank < 2 ^ d.banks
  row : c.row < 2 ^ d.rows
  col : c.col < 2 ^ d.cols
  lane : c.lane < 4

/-- On a device that covers the configuration every offset decodes to coordinates inside it (R77, R78). -/
theorem decodeOffset_inside {d : DeviceGeometry} {g : Geometry} (hd : deviceCovers d g) (a : Nat) :
    (decodeOffset (addrmap 3 g) g a).Inside d := by
  obtain ⟨hcols, hbanks, hbg, hrows, hranks, hhalf⟩ := hd
  have fits {n m : Nat} (f : Nat → Bool) (h : n ≤ m) : gather n f < 2 ^ m :=
    (gather_lt n f).trans_le (Nat.pow_le_pow_right Nat.two_pos h)
  have hlane : a % 2 ^ busShift g.half < if g.half = 1 then 2 else 4 :=
    two_pow_busShift g.half ▸ Nat.mod_lt a (Nat.two_pow_pos _)
  refine ⟨?_, fun hone => ?_, fits _ hbg, fits _ hbanks, fits _ hrows, fits _ hcols, ?_⟩
  · have hrank : (decodeOffset (addrmap 3 g) g a).rank ≤ g.rankw := by
      simp only [decodeOffset, addrmap, allocate]
      split
      · split
        · omega
        · exact Nat.zero_le _
      · exact Nat.zero_le _
    omega
  · rwa [if_pos (hhalf hone)] at hlane
  · exact hlane.trans_le (by split <;> decide)

/-- Inside a device no coordinate is cut: the cell is the coordinates' own number (R78). -/
theorem deviceCell_of_inside {d : DeviceGeometry} {c : Coords} (h : c.Inside d) :
    deviceCell d c = some (cellKey d c) := by
  have hkept : keptCoords d c = c := by
    simp only [keptCoords, Nat.mod_eq_of_lt h.bg, Nat.mod_eq_of_lt h.bank, Nat.mod_eq_of_lt h.row,
      Nat.mod_eq_of_lt h.col]
  have hwired : ¬(d.half = 1 ∧ 2 ≤ c.lane) := fun ⟨hhalf, hlane⟩ => Nat.not_le.mpr (h.wired hhalf) hlane
  rw [deviceCell, if_neg (Nat.not_le.mpr h.rank), if_neg hwired, hkept]

/-- A number in mixed radix determines its last digit and the rest. -/
theorem mixedRadix_inj {m x x' y y' : Nat} (hy : y < m) (hy' : y' < m) (h : x * m + y = x' * m + y') :
    x = x' ∧ y = y' := by
  have hlast : y = y' := by
    have := congrArg (· % m) h
    simpa [Nat.mul_add_mod', Nat.mod_eq_of_lt hy, Nat.mod_eq_of_lt hy'] using this
  subst hlast
  exact ⟨Nat.eq_of_mul_eq_mul_right (by omega) (Nat.add_right_cancel h), rfl⟩

/-- Inside a device different coordinates have different numbers (log 21). -/
theorem cellKey_inj {d : DeviceGeometry} {c c' : Coords} (h : c.Inside d) (h' : c'.Inside d)
    (he : cellKey d c = cellKey d c') : c = c' := by
  obtain ⟨he, hlane⟩ := mixedRadix_inj h.lane h'.lane he
  obtain ⟨he, hcol⟩ := mixedRadix_inj h.col h'.col he
  obtain ⟨he, hrow⟩ := mixedRadix_inj h.row h'.row he
  obtain ⟨he, hbank⟩ := mixedRadix_inj h.bank h'.bank he
  obtain ⟨hrank, hbg⟩ := mixedRadix_inj h.bg h'.bg he
  cases c
  cases c'
  simp_all

/-- Settles O44: the decode of an offset is injective, and so is the number of a cell. -/
theorem distinctOffsetsReachDistinctCells : Obligations.DistinctOffsetsReachDistinctCells := by
  intro s a b hg hmap hd ha hb hne
  have hcell (c : Nat) :
      cellOf s c = some (cellKey s.board.dev (decodeOffset (addrmap 3 (geomFields s.ag)) (geomFields s.ag) c)) := by
    rw [cellOf, hmap, deviceCell_of_inside (decodeOffset_inside hd c)]
  rw [hcell, hcell]
  refine ⟨Option.some_ne_none _, fun he => hne ?_⟩
  exact decodeOffset_inj hg ha hb
    (cellKey_inj (decodeOffset_inside hd a) (decodeOffset_inside hd b) (Option.some.inj he))

end Sys2Proof.Machine

namespace Sys2Proof.Machine

/-! SUPPORT. The command encoding's statements (30_encoding.md): the words the decoder accepts, the issue of a command on
an idle machine, the step of a CMD write and of the running command, and the POLL line. -/

/-! ## Command words (R100 to R104) -/

/-- A word is its RSV field above its OPC field (R100). -/
theorem rsvField_append_opcField (w : Word) : rsvField w ++ opcField w = w :=
  (BitVec.extractLsb'_append_extractLsb'_eq_extractLsb' (by decide)).trans BitVec.extractLsb'_eq_self

/-- The opcodes of R101 are 0x01 to 0x08; every other is reserved (R102). -/
theorem exists_opcode_eq_iff (opc : BitVec 8) : (∃ i : Instr, i.opcode = opc) ↔ 1 ≤ opc.toNat ∧ opc.toNat ≤ 8 := by
  constructor
  · rintro ⟨i, rfl⟩
    cases i <;> decide
  · rintro ⟨hlow, hhigh⟩
    interval_cases hopc : opc.toNat
    · exact ⟨.clkInit, BitVec.eq_of_toNat_eq hopc.symm⟩
    · exact ⟨.cfgOdt, BitVec.eq_of_toNat_eq hopc.symm⟩
    · exact ⟨.cfgAddrmap, BitVec.eq_of_toNat_eq hopc.symm⟩
    · exact ⟨.cfgTiming, BitVec.eq_of_toNat_eq hopc.symm⟩
    · exact ⟨.phyInit, BitVec.eq_of_toNat_eq hopc.symm⟩
    · exact ⟨.dfiInit, BitVec.eq_of_toNat_eq hopc.symm⟩
    · exact ⟨.rdCal, BitVec.eq_of_toNat_eq hopc.symm⟩
    · exact ⟨.bringup, BitVec.eq_of_toNat_eq hopc.symm⟩

theorem eq_encode_iff (w : Word) (i : Instr) : w = encode i ↔ rsvField w = 0 ∧ i.opcode = opcField w := by
  constructor
  · rintro rfl
    exact ⟨rsvField_encode i, (opcField_encode i).symm⟩
  · rintro ⟨hrsv, hopc⟩
    rw [← rsvField_append_opcField w, hrsv, ← hopc]
    rfl

/-- Some command has the word exactly when RSV = 0 and OPC is 0x01 to 0x08 (R104). -/
theorem exists_eq_encode_iff (w : Word) :
    (∃ i, w = encode i) ↔ rsvField w = 0 ∧ 1 ≤ (opcField w).toNat ∧ (opcField w).toNat ≤ 8 := by
  simp only [eq_encode_iff, exists_and_left, exists_opcode_eq_iff]

/-- What the decoder accepts is the command's own word: encoding is its inverse. -/
theorem decode_eq_ok_iff (w : Word) (i : Instr) : decode w = .ok i ↔ w = encode i := by
  refine ⟨fun h => ?_, fun h => h ▸ decode_encode i⟩
  unfold decode at h
  split at h
  · rename_i hrsv
    split at h
    · rename_i j hj
      cases h
      exact (eq_encode_iff w i).mpr ⟨hrsv, opcode_of_instrOfOpcode hj⟩
    · cases h
  · cases h

theorem commandWordWellFormed_iff (w : Word) :
    commandWordWellFormed w = true ↔ rsvField w = 0 ∧ 1 ≤ (opcField w).toNat ∧ (opcField w).toNat ≤ 8 := by
  simp only [commandWordWellFormed, Bool.and_eq_true, beq_iff_eq, decide_eq_true_eq]
  rfl

/-- Settles O2: the decoder inverts the encoder, and the words of commands are told by their two fields. -/
theorem decodeIsExactlyEncode : Obligations.DecodeIsExactlyEncode := by
  refine ⟨decode_eq_ok_iff, fun w => ?_, fun w => ?_, fun w => ?_⟩
  · simp only [decode_eq_ok_iff]
    exact exists_eq_encode_iff w
  · cases decode w with
    | ok i => exact .inl ⟨i, rfl⟩
    | error e => exact .inr ⟨e, rfl⟩
  · exact (commandWordWellFormed_iff w).trans (exists_eq_encode_iff w).symm

/-- Settles O1: each of the eight words is its command's encoding; the other six fail on a field. -/
theorem commandWordsDecode : Obligations.CommandWordsDecode :=
  ⟨decode_encode .clkInit, decode_encode .cfgOdt, decode_encode .cfgAddrmap, decode_encode .cfgTiming,
    decode_encode .phyInit, decode_encode .dfiInit, decode_encode .rdCal, decode_encode .bringup,
    by decide, by decide, by decide, by decide, by decide, by decide⟩

/-! ## The issue of a command on an idle machine (R106, R313) -/

/-- With FATAL = 0 and BUSY = 0 the host's issue of a command starts it or ends it with SEQ_ERROR, by its precondition
alone. -/
theorem exec_of_idle (i : Instr) {s : State} (ht : s.turn = .host) (hf : s.fatal = false) (hb : s.busy = false) :
    exec i s = if precondition i s = true then .next (startCommand i (accept i.opcode s))
      else .next (endCmd .seqError (accept i.opcode s)) := by
  rw [exec_issue i s (by simp [ht])]
  rcases issue_cases i s with ⟨h, -⟩ | ⟨-, h, -⟩ | ⟨-, -, hp, e⟩ | ⟨-, -, hp, e⟩
  · simp [hf] at h
  · simp [hb] at h
  · rw [e, if_pos hp]
  · rw [e, if_neg (by simp [hp])]

/-- PHY_INIT needs CLOCKED and the three done bits (R106). -/
theorem precondition_phyInit_iff (s : State) : precondition .phyInit s = true ↔
    s.stage = .clocked ∧ s.amDone = true ∧ s.odtDone = true ∧ s.timDone = true := by
  simp [precondition, and_assoc]

/-- Settles O4: on an idle machine a command's issue is decided by its precondition, which each command spells out. -/
theorem commandsRunExactlyInTheirStage : Obligations.CommandsRunExactlyInTheirStage := by
  intro s ht hf hb
  have hexec (i : Instr) := exec_of_idle i ht hf hb
  refine ⟨?_, ?_, ?_, ?_, ?_, ?_, ?_, ?_⟩
  · exact (hexec .clkInit).trans (if_pos rfl)
  · exact (hexec .cfgOdt).trans (if_congr beq_iff_eq rfl rfl)
  · exact (hexec .cfgAddrmap).trans (if_congr beq_iff_eq rfl rfl)
  · exact (hexec .cfgTiming).trans (if_congr beq_iff_eq rfl rfl)
  · exact (hexec .phyInit).trans (if_congr (precondition_phyInit_iff s) rfl rfl)
  · exact (hexec .dfiInit).trans (if_congr beq_iff_eq rfl rfl)
  · exact (hexec .rdCal).trans (if_congr beq_iff_eq rfl rfl)
  · exact (hexec .bringup).trans (if_pos rfl)

/-! ## The step of a command (R20, R22, R100) -/

theorem onNext_onNext (o : StepOutcome) (f g : State → State) : onNext (onNext o f) g = onNext o (fun t => g (f t)) := by
  cases o <;> rfl

theorem writeCmd_of_decode {w : Word} {i : Instr} (h : decode w = .ok i) (s : State) : writeCmd w s = exec i s := by
  simp only [writeCmd, h]

/-- A WR32 line to CMD is the CMD write of the value's low 32 bits, then the next line (R23, log 30). -/
theorem hostLine_wr_cmd (e : HostExpr) (s : State) : hostLine (.wr 4 0x00 e) s =
    onNext (writeCmd (BitVec.ofNat 32 (evalExpr s.host.temps e)) s) nextLine := rfl

theorem step_wr_cmd {s : State} {e : HostExpr} (ht : s.turn = .host) (hr : s.host.ret = none)
    (hl : s.host.prog[s.host.pc]? = some (.wr 4 0x00 e)) :
    step s = onNext (writeCmd (BitVec.ofNat 32 (evalExpr s.host.temps e)) s) (fun t => passTurn (nextLine t)) := by
  rw [step_hostLine ht hr hl, hostLine_wr_cmd, onNext_onNext]

/-- The sequencer's step is the meaning of the command CUR_CMD holds (R22). -/
theorem sequencerStep_running {s : State} {i : Instr} (hb : s.busy = true) (hc : s.curCmd = i.opcode) :
    sequencerStep s = exec i s := by
  simp only [sequencerStep, hb, hc, instrOfOpcode_opcode, if_true]

/-- Settles O5: the host's CMD write, first of any word, then of a command's; then the sequencer's turn. -/
theorem stepRunsDecodedInstruction : Obligations.StepRunsDecodedInstruction := by
  refine ⟨fun s e ht hr hl => step_wr_cmd ht hr hl, fun s i e ht hr hl hd => ?_, fun s i ht hb hc => ?_⟩
  · rw [step_wr_cmd ht hr hl, writeCmd_of_decode hd]
  · have hturn : takeTurn s = sequencerStep s := by simp only [takeTurn, ht]
    rw [step, hturn, sequencerStep_running hb hc]

/-! ## The POLL line (R109) -/

/-- A POLL of an aligned offset reads once, into temporary 0; the masked value decides whether the host goes on. -/
theorem hostLine_poll {off : BitVec 8} (m v : HostExpr) (s : State) (h : off.toNat % 4 = 0) :
    hostLine (.poll off m v) s = .next
      (if (readBlockReg s off).toNat &&& evalExpr s.host.temps m = evalExpr s.host.temps v
        then nextLine (assignTemp 0 (readBlockReg s off).toNat s)
        else assignTemp 0 (readBlockReg s off).toNat s) :=
  if_pos ((windowAccessOk_iff 4 off).mpr ⟨rfl, h⟩)

/-- Settles O48: the two branches of one POLL read. -/
theorem pollRepeatsUntilMatch : Obligations.PollRepeatsUntilMatch := by
  intro s off m v ht hr hl halign
  refine ⟨fun hmatch => ?_, fun hmiss => ?_⟩ <;> rw [step_hostLine ht hr hl, hostLine_poll m v s halign]
  · rw [if_pos hmatch]
    rfl
  · rw [if_neg hmiss]
    rfl

end Sys2Proof.Machine

namespace Sys2Proof.Machine

/-! SUPPORT. The clock and reset stage's statements (41_clock_reset.md): a step of an environment agent, the PLL and the
MR engine, and CLK_INIT's micro-steps one by one and in a row. -/

/-! ## The PLL and the MR engine (R123, R232) -/

theorem step_env {s : State} {m : EnvMove} (ht : s.turn = .env m) : step s = .next (passTurn (envStep m s)) := by
  simp only [step, takeTurn, ht, onNext]

/-- Where LOCK already reads 1, setting it changes nothing: the PLL's two branches agree (log 12, log 20). -/
theorem pllStep_eq (s : State) : pllStep s = { s with pll := { s.pll with lock := true } } := by
  unfold pllStep
  split
  · rename_i hlock
    rw [← hlock]
  · rfl

theorem mrEngineStep_of_idle {s : State} (h : s.ctl.mrBusy = false) : mrEngineStep s = s :=
  if_neg (by simp [h])

theorem mrEngineStep_of_busy {s : State} (h : s.ctl.mrBusy = true) : mrEngineStep s = { s with
    ctl := { s.ctl with mrBusy := false }
    devMr := writeDeviceMr s.board.dev s.ctl.mrAddr s.ctl.mrData s.devMr } :=
  if_pos h

/-- Settles O36: the PLL's one effect, and the MR engine's two branches with the device write read rank by rank. -/
theorem pllAndMrEngineSteps : Obligations.PllAndMrEngineSteps := by
  refine ⟨fun s ht => ?_, fun s ht => ⟨fun hidle => ?_, fun hbusy => ?_⟩⟩
  · rw [step_env ht, envStep, pllStep_eq]
  · rw [step_env ht, envStep, mrEngineStep_of_idle hidle]
  · rw [step_env ht, envStep, mrEngineStep_of_busy hbusy]
    refine ⟨_, rfl, ?_, ?_, ?_⟩ <;> rw [passTurn_devMr]
    · exact writeDeviceMr_rank0 _ _ _ _
    · exact writeDeviceMr_rank1 _ _ _ _

/-! ## CLK_INIT (R120 to R125) -/

/-- The micro-step that FSM names, with FSM's value put in its place: for a known `m` the answer computes (R22). -/
theorem exec_sequencer_at {i : Instr} {s : State} {m : Micro} (ht : s.turn = .sequencer) (hf : s.fsm = m)
    (hi : i ≠ .bringup := by simp) : exec i s = .next (microAlone (subMicro i { s with fsm := m })) := by
  subst hf
  exact exec_sequencer i s hi ht

theorem repeatExec_succ {i : Instr} {s t : State} {n : Nat} (h : exec i s = .next t) :
    repeatExec i (n + 1) s = repeatExec i n t := by
  simp only [repeatExec, h]

/-- The first of several micro-steps in a row, in the same form. -/
theorem repeatExec_sequencer_at {i : Instr} {s : State} {m : Micro} {n : Nat} (ht : s.turn = .sequencer)
    (hf : s.fsm = m) (hi : i ≠ .bringup := by simp) :
    repeatExec i (n + 1) s = repeatExec i n (microAlone (subMicro i { s with fsm := m })) :=
  repeatExec_succ (exec_sequencer_at ht hf hi)

/-- The poll passes once the PLL has locked (R123, R317). -/
theorem exec_clkInit_locked {s : State} (ht : s.turn = .sequencer) (hf : s.fsm = .ckLock) (hlock : s.pll.lock = true) :
    exec .clkInit s = .next { s with fsm := .ckModclk } := by
  rw [exec_sequencer_at ht hf]
  simp only [subMicro, clkInitMicro, hlock, if_true, microAlone_goTo]

/-- The state that the hold step leaves (R120, R124); exec_clkInit_hold ties it to the model. -/
def afterHold (s : State) : State :=
  { domainReset s with
    fsm := .ckSettleA
    stage := .reset
    ccu := { bridgeEn := false, busGate := false, modClkEn := false, dramRst := true } }

theorem exec_clkInit_hold {s : State} (ht : s.turn = .sequencer) (hf : s.fsm = .ckHold) :
    exec .clkInit s = .next (afterHold s) :=
  exec_sequencer_at ht hf

/-- Settles O14: the hold step and the poll have lemmas of their own, every other micro-step computes once
FSM is known. -/
theorem clkInitMicroSteps : Obligations.ClkInitMicroSteps := by
  intro s ht
  refine ⟨exec_clkInit_hold ht, ?settleA, ?pll, exec_clkInit_locked ht, ?modclk,
    ?rstRel, ?settleB, ?busgate, ?bridge⟩
  all_goals exact exec_sequencer_at ht

/-- The three micro-steps from the hold step to the poll: the domain reset, a delay, the PLL's new frequency. -/
theorem repeatExec_clkInit_to_poll {s : State} (ht : s.turn = .sequencer) (hf : s.fsm = .ckHold) :
    repeatExec .clkInit 3 s = .next { afterHold s with
      fsm := .ckLock, pll := { freq := Config.pllFreq s.board.params.clk, lock := false } } :=
  calc repeatExec .clkInit 3 s
    _ = repeatExec .clkInit 2 (afterHold s) := repeatExec_succ (exec_clkInit_hold ht hf)
    _ = repeatExec .clkInit 1 { afterHold s with fsm := .ckPll } :=
      repeatExec_sequencer_at (m := .ckSettleA) ht rfl
    _ = _ := repeatExec_sequencer_at (m := .ckPll) ht rfl

/-- The six micro-steps from the poll to the end: the clock unit is released bit by bit, in R121's order. -/
theorem repeatExec_clkInit_from_poll {s : State} (ht : s.turn = .sequencer) (hf : s.fsm = .ckLock)
    (hlock : s.pll.lock = true) :
    repeatExec .clkInit 6 s = .next { s with
      fsm := .idle, busy := false, cmdDone := true, result := .ok, stage := .clocked
      ccu := { bridgeEn := true, busGate := true, modClkEn := true, dramRst := false }
      amDone := false, odtDone := false, timDone := false, agValid := false } :=
  calc repeatExec .clkInit 6 s
    _ = repeatExec .clkInit 5 { s with fsm := .ckModclk } :=
      repeatExec_succ (exec_clkInit_locked ht hf hlock)
    _ = repeatExec .clkInit 4 { s with fsm := .ckRstRel, ccu := { s.ccu with modClkEn := true } } :=
      repeatExec_sequencer_at (m := .ckModclk) ht rfl
    _ = repeatExec .clkInit 3 { s with
          fsm := .ckSettleB, ccu := { s.ccu with modClkEn := true, dramRst := false } } :=
      repeatExec_sequencer_at (m := .ckRstRel) ht rfl
    _ = repeatExec .clkInit 2 { s with
          fsm := .ckBusgate, ccu := { s.ccu with modClkEn := true, dramRst := false } } :=
      repeatExec_sequencer_at (m := .ckSettleB) ht rfl
    _ = repeatExec .clkInit 1 { s with
          fsm := .ckBridge, ccu := { s.ccu with busGate := true, modClkEn := true, dramRst := false } } :=
      repeatExec_sequencer_at (m := .ckBusgate) ht rfl
    _ = _ := repeatExec_sequencer_at (m := .ckBridge) ht rfl

/-- Settles O15: the run to the poll, read field by field, and the run from the poll. -/
theorem clkInitRunsToClocked : Obligations.ClkInitRunsToClocked := by
  refine ⟨fun s ht hf => ⟨_, repeatExec_clkInit_to_poll ht hf, ?_⟩, fun s => repeatExec_clkInit_from_poll⟩
  exact ⟨rfl, rfl, rfl, rfl, rfl, rfl, rfl, rfl, rfl, rfl, rfl, rfl, rfl, rfl, rfl, rfl, rfl, rfl⟩

end Sys2Proof.Machine

namespace Sys2Proof.Machine

/-! SUPPORT. The controller configurator's statements (42_controller_config.md): the contents of the address map, the
operand of CFG_ADDRMAP and CFG_ODT, the micro-steps of the three commands in a row, and what they leave unchanged. -/

/-! ## The address map's fields (R142, R146) -/

@[simp] theorem tabulate_getElem {α : Type} {n : Nat} (f : Nat → α) {j : Nat} (hj : j < n) :
    (tabulate n f)[j] = f j := by
  simp [tabulate]

@[simp] theorem tabulate_toList {α : Type} (n : Nat) (f : Nat → α) : (tabulate n f).toList = (List.range n).map f := by
  simp [tabulate]

@[simp] theorem allocate_isSome (off width j : Nat) : (allocate off width j).isSome = true ↔ j < width := by
  unfold allocate
  split <;> simp_all

/-- A field with an entry for each bit of its width enables as many consecutive positions, from its offset on. -/
theorem enabled_of_field {n off width : Nat} (h : width ≤ n) :
    (tabulate n (allocate off width)).toList.filterMap id = List.range' off width := by
  rw [tabulate_toList, List.filterMap_map, Function.id_comp]
  induction n, h using Nat.le_induction with
  | base =>
    have henabled : ∀ j ∈ List.range width, allocate off width j = (some ∘ (off + ·)) j := fun j hj =>
      if_pos (List.mem_range.mp hj)
    rw [List.filterMap_congr henabled, List.filterMap_eq_map, List.range'_eq_map_range]
  | succ n hn ih =>
    rw [List.range_succ, List.filterMap_append, ih]
    simp [allocate, Nat.not_lt.mpr hn]

/-- RANK0 is a field of one entry. -/
theorem enabled_rank0 {off width : Nat} (h : width ≤ 1) :
    [allocate off width 0].filterMap id = List.range' off width :=
  enabled_of_field h

/-- The fields' positions follow one another without a gap, whatever the start offset (R142, R146). -/
theorem enabledPositions_addrmap {g : Geometry} (hg : validGeometry g = true) (start : Nat) :
    enabledPositions (addrmap start g) = List.range' start (hifWidth g - 3) := by
  obtain ⟨hcols8, hcols, hbanks, hbg, -, hrows, hrank⟩ := (validGeometry_iff g).mp hg
  have hwidth : hifWidth g - 3 = g.bg + (g.cols - 3) + g.banks + g.rows + g.rankw := by
    unfold hifWidth
    omega
  simp only [enabledPositions, addrmap, List.filterMap_append]
  rw [enabled_of_field hbg, enabled_of_field (by omega), enabled_of_field (by omega), enabled_of_field hrows,
    enabled_rank0 hrank, hwidth]
  simp only [← List.range'_append_1, Nat.add_assoc, List.append_assoc]

/-- Settles O18: the positions of the five fields, the enabled bits of each field, and BG0 and BG1 by the width. -/
theorem addressMapIsContiguous : Obligations.AddressMapIsContiguous := by
  intro g hg
  obtain ⟨-, -, -, -, -, -, hrank⟩ := (validGeometry_iff g).mp hg
  refine ⟨enabledPositions_addrmap hg 3, fun j => ?bg, fun c => ?col, fun b => ?bank, fun r => ?row, ?rank,
    fun h => ?bg2, fun h => ?bg1, fun h => ?bg0⟩
  case bg | bank | row => simp [addrmap]
  case col => simp [addrmap, Nat.lt_sub_iff_add_lt]
  case rank =>
    simp only [addrmap, allocate_isSome]
    omega
  all_goals simp [addrmap, allocate, h]

/-- The map does not read the bus width (R142). -/
theorem addrmap_half (start : Nat) (g : Geometry) (half : Nat) :
    addrmap start { g with half := half } = addrmap start g := rfl

/-- With the decided start offset both bus widths start at HIF 3 (R143). -/
theorem startOffset_of_three {b : Board} (h : b.halfStartOffset = 3) (g : Geometry) : startOffset b g = 3 := by
  rw [startOffset, h, ite_self]

/-- A full bus has two bytes more in a word, and so twice the capacity (R76). -/
theorem capacity_full_eq_double_half (g : Geometry) :
    capacity { g with half := 0 } = 2 * capacity { g with half := 1 } := by
  simp only [capacity, two_pow_busShift, Nat.zero_ne_one, if_true, if_false]
  omega

/-- Settles O19: one map for both bus widths at start offset 3; the alternative 2 is the first enabled position. -/
theorem busWidthChangesShiftNotMap : Obligations.BusWidthChangesShiftNotMap := by
  refine ⟨fun b g hstart => ⟨?_, capacity_full_eq_double_half g⟩, fun b g hstart hg hhalf => ?_⟩
  · simp only [startOffset_of_three hstart, addrmap_half]
  · obtain ⟨hcols8, -⟩ := (validGeometry_iff g).mp hg
    have hpos : hifWidth g - 3 ≠ 0 := by
      unfold hifWidth
      omega
    rw [startOffset, if_pos hhalf, hstart, enabledPositions_addrmap hg, List.head?_range', if_neg hpos]

/-! ## CFG_ADDRMAP (R140, R141, R145) -/

/-- At its first micro-step CFG_ADDRMAP checks its operand, and goes on or ends (R140, R141, R312). -/
theorem exec_cfgAddrmap_validate {s : State} (ht : s.turn = .sequencer) (hf : s.fsm = .amValidate) :
    exec .cfgAddrmap s = .next (if validGeometry (geomFields s.opGeom) then { s with fsm := .amMstr }
      else { s with fsm := .idle, busy := false, cmdDone := true, result := .configInvalid, fatal := true }) := by
  rw [exec_sequencer_at ht hf]
  simp only [subMicro, cfgAddrmapMicro, microAlone_ite, microAlone_goTo, microAlone_fin, endCmd]

/-- Settles O16: the bounds field by field, and the failing branch of the check. -/
theorem invalidGeometryEndsConfigInvalid : Obligations.InvalidGeometryEndsConfigInvalid := by
  refine ⟨fun g => ?_, fun s ht hf hinvalid => ?_⟩
  · rw [validGeometry_iff]
    omega
  · rw [exec_cfgAddrmap_validate ht hf, hinvalid]
    rfl

/-- Settles O17: the check passes, master mode is written, then the map and AG. -/
theorem cfgAddrmapRunsToEnd : Obligations.CfgAddrmapRunsToEnd := by
  intro s ht hf hvalid
  have hcheck : exec .cfgAddrmap s = .next { s with fsm := .amMstr } := by
    rw [exec_cfgAddrmap_validate ht hf, if_pos hvalid]
  exact calc repeatExec .cfgAddrmap 3 s
    _ = repeatExec .cfgAddrmap 2 { s with fsm := .amMstr } := repeatExec_succ hcheck
    _ = repeatExec .cfgAddrmap 1 { s with
          fsm := .amMap
          ctl := { s.ctl with mstr :=
            { tech := s.board.params.tech, half := (geomFields s.opGeom).half
              ranks := rankMask (geomFields s.opGeom).rankw } } } :=
      repeatExec_sequencer_at (m := .amMstr) ht rfl
    _ = _ := repeatExec_sequencer_at (m := .amMap) ht rfl

/-! ## CFG_ODT (R150 to R155) -/

/-- Bit 12 of MR4 alone decides the DDR4 high sub-field (R154). -/
theorem ddr4OdtHi_eq (mr4 : Word) : ddr4OdtHi mr4 = if mr4.getLsbD 12 then 7 else 6 := by
  have hbit : (mr4 >>> 12) &&& 1 = BitVec.setWidth 32 (BitVec.ofBool (mr4.getLsbD 12)) :=
    BitVec.and_one_eq_setWidth_ofBool_getLsbD.trans (by rw [BitVec.getLsbD_ushiftRight])
  rw [ddr4OdtHi, hbit]
  cases mr4.getLsbD 12 <;> rfl

theorem exec_cfgOdt_timing {s : State} (ht : s.turn = .sequencer) (hf : s.fsm = .odtTim) :
    exec .cfgOdt s = .next { s with
      fsm := .odtSh0, ctl := { s.ctl with odtcfg := odtTiming s.board.params } } :=
  exec_sequencer_at ht hf

/-- Settles O20: the timing value of each technology. -/
theorem odtTimingByTechnology : Obligations.OdtTimingByTechnology := by
  intro s ht hf
  rw [exec_cfgOdt_timing ht hf]
  unfold odtTiming
  cases s.board.params.tech with
  | ddr3 | lpddr3 | lpddr4 => rfl
  | ddr4 => rw [ddr4OdtHi_eq]

/-- HALF is bit 16 of the GEOM word (R105). -/
theorem geomFields_half_eq_one_iff (w : BitVec 17) : (geomFields w).half = 1 ↔ w.getLsbD 16 = true := by
  rw [BitVec.getLsbD_eq_extractLsb', beq_iff_eq]
  exact BitVec.toNat_inj (y := 1#1)

/-- The routing constant is chosen by bit 16 of the operand (R105, R151). -/
theorem odtRouting_geomFields (w : BitVec 17) :
    odtRouting (geomFields w).half = if w.getLsbD 16 then Config.odtMapHalf else Config.odtMapFull :=
  if_congr (geomFields_half_eq_one_iff w) rfl rfl

/-- Settles O21: the routing constant, the timing value and its three shadows, a micro-step each. -/
theorem cfgOdtRunsToEnd : Obligations.CfgOdtRunsToEnd := by
  intro s ht hf
  rw [← odtRouting_geomFields]
  exact calc repeatExec .cfgOdt 5 s
    _ = repeatExec .cfgOdt 4 { s with
          fsm := .odtTim, ctl := { s.ctl with odtmap := odtRouting (geomFields s.opGeom).half } } :=
      repeatExec_sequencer_at ht hf
    _ = repeatExec .cfgOdt 3 { s with
          fsm := .odtSh0
          ctl := { s.ctl with
            odtmap := odtRouting (geomFields s.opGeom).half, odtcfg := odtTiming s.board.params } } :=
      repeatExec_sequencer_at (m := .odtTim) ht rfl
    _ = repeatExec .cfgOdt 2 { s with
          fsm := .odtSh1
          ctl := { s.ctl with
            odtmap := odtRouting (geomFields s.opGeom).half, odtcfg := odtTiming s.board.params
            odtcfgSh0 := odtTiming s.board.params } } :=
      repeatExec_sequencer_at (m := .odtSh0) ht rfl
    _ = repeatExec .cfgOdt 1 { s with
          fsm := .odtSh2
          ctl := { s.ctl with
            odtmap := odtRouting (geomFields s.opGeom).half, odtcfg := odtTiming s.board.params
            odtcfgSh0 := odtTiming s.board.params, odtcfgSh1 := odtTiming s.board.params } } :=
      repeatExec_sequencer_at (m := .odtSh1) ht rfl
    _ = _ := repeatExec_sequencer_at (m := .odtSh2) ht rfl

/-! ## CFG_TIMING (R160) -/

/-- Settles O22: the one micro-step computes once FSM is known. -/
theorem cfgTimingWritesTheBank : Obligations.CfgTimingWritesTheBank :=
  fun _ ht hf => exec_sequencer_at ht hf

/-! ## What the three commands leave unchanged (R140, R150, R160, R313, R314) -/

/-- A relation between the states before and after a single command's step holds when it holds for its micro-step and for
the four things its issue can do. -/
theorem exec_related {R : State → State → Prop} {i : Instr} {s t : State} (hi : i ≠ .bringup)
    (hmicro : R s (microAlone (subMicro i s))) (hkept : R s s) (hoverrun : R s { s with ovr := true })
    (hstart : R s (startCommand i (accept i.opcode s))) (hreject : R s (endCmd .seqError (accept i.opcode s)))
    (h : exec i s = .next t) : R s t := by
  by_cases ht : s.turn = .sequencer
  · rw [exec_sequencer i s hi ht] at h
    injection h with h
    exact h ▸ hmicro
  · rw [exec_issue i s ht] at h
    injection h with h
    subst h
    rcases issue_cases i s with ⟨-, e⟩ | ⟨-, -, e⟩ | ⟨-, -, -, e⟩ | ⟨-, -, -, e⟩ <;> rw [e]
    · exact hkept
    · exact hoverrun
    · exact hstart
    · exact hreject

/-- All that CFG_ADDRMAP may change between `s` and `t`. -/
def CfgAddrmapFrame (s t : State) : Prop :=
  t = { s with
    ctl := { s.ctl with mstr := t.ctl.mstr, addrmap := t.ctl.addrmap }
    ag := t.ag, agValid := t.agValid, amDone := t.amDone, fatal := t.fatal, ovr := t.ovr, busy := t.busy
    cmdDone := t.cmdDone, result := t.result, fsm := t.fsm, curCmd := t.curCmd, opGeom := t.opGeom }

/-- All that CFG_ODT may change between `s` and `t`. -/
def CfgOdtFrame (s t : State) : Prop :=
  t = { s with
    ctl := { s.ctl with
      odtmap := t.ctl.odtmap, odtcfg := t.ctl.odtcfg, odtcfgSh0 := t.ctl.odtcfgSh0
      odtcfgSh1 := t.ctl.odtcfgSh1, odtcfgSh2 := t.ctl.odtcfgSh2 }
    odtDone := t.odtDone, ovr := t.ovr, busy := t.busy, cmdDone := t.cmdDone, result := t.result, fsm := t.fsm
    curCmd := t.curCmd, opGeom := t.opGeom }

/-- All that CFG_TIMING may change between `s` and `t`. -/
def CfgTimingFrame (s t : State) : Prop :=
  t = { s with
    ctl := { s.ctl with timing := t.ctl.timing }
    timDone := t.timDone, ovr := t.ovr, busy := t.busy, cmdDone := t.cmdDone, result := t.result, fsm := t.fsm
    curCmd := t.curCmd }

theorem cfgAddrmapMicro_frame (s : State) : CfgAddrmapFrame s (microAlone (subMicro .cfgAddrmap s)) := by
  simp only [subMicro, cfgAddrmapMicro]
  split
  · split <;> rfl
  all_goals rfl

theorem cfgOdtMicro_frame (s : State) : CfgOdtFrame s (microAlone (subMicro .cfgOdt s)) := by
  simp only [subMicro, cfgOdtMicro]
  split <;> rfl

theorem cfgTimingMicro_frame (s : State) : CfgTimingFrame s (microAlone (subMicro .cfgTiming s)) := by
  simp only [subMicro, cfgTimingMicro]
  split <;> rfl

theorem exec_cfgAddrmap_frame {s t : State} (h : exec .cfgAddrmap s = .next t) : CfgAddrmapFrame s t :=
  exec_related (by simp) (cfgAddrmapMicro_frame s) rfl rfl rfl rfl h

theorem exec_cfgOdt_frame {s t : State} (h : exec .cfgOdt s = .next t) : CfgOdtFrame s t :=
  exec_related (by simp) (cfgOdtMicro_frame s) rfl rfl rfl rfl h

theorem exec_cfgTiming_frame {s t : State} (h : exec .cfgTiming s = .next t) : CfgTimingFrame s t :=
  exec_related (by simp) (cfgTimingMicro_frame s) rfl rfl rfl rfl h

/-- With the cells and the way to them unchanged, every byte is, cell by cell and offset by offset (R77, R79). -/
theorem memory_unchanged {s t : State} (hdram : t.dram = s.dram) (hcell : ∀ a, cellOf t a = cellOf s a) :
    (∀ k, Memory.get t.dram k = Memory.get s.dram k) ∧ (∀ a, dramStored t a = dramStored s a) :=
  ⟨fun k => by rw [hdram], fun a => by simp only [dramStored, hcell, hdram]⟩

/-- Settles O37: DRAM stands unchanged in each command's frame, and so do the board, the map and AG in CFG_ODT's and
CFG_TIMING's. -/
theorem configuratorFrame : Obligations.ConfiguratorFrame := by
  refine ⟨fun s t h => ?addrmap, fun s t h => ?odt, fun s t h => ?timing⟩
  case addrmap =>
    have hframe := exec_cfgAddrmap_frame h
    have hdram : t.dram = s.dram := (congrArg State.dram hframe :)
    exact ⟨hframe, fun k => by rw [hdram]⟩
  case odt =>
    have hframe := exec_cfgOdt_frame h
    exact ⟨hframe, memory_unchanged (congrArg State.dram hframe :) fun a => (congrArg (cellOf · a) hframe :)⟩
  case timing =>
    have hframe := exec_cfgTiming_frame h
    exact ⟨hframe, memory_unchanged (congrArg State.dram hframe :) fun a => (congrArg (cellOf · a) hframe :)⟩

end Sys2Proof.Machine

namespace Sys2Proof.Machine

/-! SUPPORT. The PHY initializer's statements (43_phy_init.md): PHY_INIT's micro-steps in a row, and what PHY_INIT,
DFI_INIT and RD_CAL leave unchanged. -/

/-! ## The values PHY_INIT programs (R185 to R187) -/

theorem vrefOf_eq_getD (p : Params) : vrefOf p = p.vrefOverride.getD (Config.vrefDefault p.tech) := by
  unfold vrefOf
  cases p.vrefOverride <;> rfl

theorem dbiOf_eq (t : Tech) : dbiOf t = (t == .ddr4 || t == .lpddr4) := by
  cases t <;> rfl

theorem odtOverrideOf_eq (t : Tech) :
    odtOverrideOf t = if t = .lpddr3 ∨ t = .ddr4 then some (Config.odtOverride t) else none := by
  cases t <;> rfl

/-! ## PHY_INIT (R180 to R193) -/

/-- Micro-steps in a row are cut in two at any point. -/
theorem repeatExec_add {i : Instr} {s t : State} {m : Nat} (n : Nat) (h : repeatExec i m s = .next t) :
    repeatExec i (m + n) s = repeatExec i n t := by
  induction m generalizing s with
  | zero =>
    injection h with h
    rw [Nat.zero_add, h]
  | succ m ih =>
    obtain ⟨u, hu⟩ := exec_next i s
    rw [repeatExec_succ hu] at h
    rw [Nat.add_right_comm, repeatExec_succ hu, ih h]

/-- The reset is released, the system-configuration write performed and the two tables are loaded (R181 to R183). -/
theorem repeatExec_phyInit_tables {s : State} (ht : s.turn = .sequencer) (hf : s.fsm = .phyRstRel) :
    repeatExec .phyInit 4 s = .next { s with
      fsm := .phyDrive
      regWrites := (Config.sysCfgAddr, Config.sysCfgValue) :: s.regWrites
      phy := { s.phy with
        rst := false, lat := Config.latTable s.board.params.tech, sdq := Config.sdqTable s.board.phyRouting } } :=
  calc repeatExec .phyInit 4 s
    _ = repeatExec .phyInit 3 { s with fsm := .phySyscfg, phy := { s.phy with rst := false } } :=
      repeatExec_sequencer_at ht hf
    _ = repeatExec .phyInit 2 { s with
          fsm := .phyLat
          regWrites := (Config.sysCfgAddr, Config.sysCfgValue) :: s.regWrites
          phy := { s.phy with rst := false } } :=
      repeatExec_sequencer_at (m := .phySyscfg) ht rfl
    _ = repeatExec .phyInit 1 { s with
          fsm := .phySdq
          regWrites := (Config.sysCfgAddr, Config.sysCfgValue) :: s.regWrites
          phy := { s.phy with rst := false, lat := Config.latTable s.board.params.tech } } :=
      repeatExec_sequencer_at (m := .phyLat) ht rfl
    _ = _ := repeatExec_sequencer_at (m := .phySdq) ht rfl

/-- Drive, ODT and VREF of the four lanes are programmed, then the technology's quirks (R184 to R188). -/
theorem repeatExec_phyInit_lanes {s : State} (ht : s.turn = .sequencer) (hf : s.fsm = .phyDrive) :
    repeatExec .phyInit 3 s = .next { s with
      fsm := .phyLp4
      phy := { s.phy with
        dxDrive := allLanes s.board.params.dxDrive, dxOdt := allLanes s.board.params.dxOdt
        caDrive := s.board.params.caDrive, caOdt := s.board.params.caOdt
        vref := allLanes (vrefOf s.board.params)
        dbiEn := dbiOf s.board.params.tech, odtOvr := odtOverrideOf s.board.params.tech
        polarity := Config.polarity s.board.params.tech } } :=
  calc repeatExec .phyInit 3 s
    _ = repeatExec .phyInit 2 { s with
          fsm := .phyVref
          phy := { s.phy with
            dxDrive := allLanes s.board.params.dxDrive, dxOdt := allLanes s.board.params.dxOdt
            caDrive := s.board.params.caDrive, caOdt := s.board.params.caOdt } } :=
      repeatExec_sequencer_at ht hf
    _ = repeatExec .phyInit 1 { s with
          fsm := .phyQuirks
          phy := { s.phy with
            dxDrive := allLanes s.board.params.dxDrive, dxOdt := allLanes s.board.params.dxOdt
            caDrive := s.board.params.caDrive, caOdt := s.board.params.caOdt
            vref := allLanes (vrefOf s.board.params) } } :=
      repeatExec_sequencer_at (m := .phyVref) ht rfl
    _ = _ := repeatExec_sequencer_at (m := .phyQuirks) ht rfl

/-- The poke is LPDDR4's alone (R189). -/
theorem exec_phyInit_lp4 {s : State} (ht : s.turn = .sequencer) (hf : s.fsm = .phyLp4) :
    exec .phyInit s = .next { s with
      fsm := .phyCadly
      regWrites := (if s.board.params.tech = .lpddr4 then [(Config.lp4PokeAddr, Config.lp4PokeValue)] else [])
        ++ s.regWrites } := by
  rw [exec_sequencer_at ht hf]
  simp only [subMicro, phyInitMicro, microAlone_goTo]
  split <;> rfl

/-- The command/address delay is written under its flag (R190). -/
theorem exec_phyInit_caDelay {s : State} (ht : s.turn = .sequencer) (hf : s.fsm = .phyCadly) :
    exec .phyInit s = .next { s with
      fsm := .phyBdly0
      phy := { s.phy with
        caDelay := if s.board.params.flags.caDelayEn then s.board.params.caDelay else s.phy.caDelay } } := by
  rw [exec_sequencer_at ht hf]
  simp only [subMicro, phyInitMicro, microAlone_goTo]
  split <;> rfl

/-- The first bit-delay word is written under its flag (R191). -/
theorem exec_phyInit_bitdly0 {s : State} (ht : s.turn = .sequencer) (hf : s.fsm = .phyBdly0) :
    exec .phyInit s = .next { s with
      fsm := .phyBdly1
      phy := { s.phy with
        bitdly0 := if s.board.params.flags.bitdly0En then bitDelayLanes s.board.params.bitdlyW0
          else s.phy.bitdly0 } } := by
  rw [exec_sequencer_at ht hf]
  simp only [subMicro, phyInitMicro, microAlone_goTo]
  split <;> rfl

/-- The second bit-delay word is written under its flag, and the command ends (R192, R193). -/
theorem exec_phyInit_bitdly1 {s : State} (ht : s.turn = .sequencer) (hf : s.fsm = .phyBdly1) :
    exec .phyInit s = .next { s with
      fsm := .idle, busy := false, cmdDone := true, result := .ok, stage := .phyReady
      phy := { s.phy with
        bitdly1 := if s.board.params.flags.bitdly1En then bitDelayLanes s.board.params.bitdlyW1
          else s.phy.bitdly1 } } := by
  rw [exec_sequencer_at ht hf]
  simp only [subMicro, phyInitMicro, microAlone_fin]
  split <;> rfl

/-- The four micro-steps that a technology or a flag decides, in a row (R189 to R193). -/
theorem repeatExec_phyInit_optional {s : State} (ht : s.turn = .sequencer) (hf : s.fsm = .phyLp4) :
    repeatExec .phyInit 4 s = .next { s with
      fsm := .idle, busy := false, cmdDone := true, result := .ok, stage := .phyReady
      regWrites := (if s.board.params.tech = .lpddr4 then [(Config.lp4PokeAddr, Config.lp4PokeValue)] else [])
        ++ s.regWrites
      phy := { s.phy with
        caDelay := if s.board.params.flags.caDelayEn then s.board.params.caDelay else s.phy.caDelay
        bitdly0 := if s.board.params.flags.bitdly0En then bitDelayLanes s.board.params.bitdlyW0 else s.phy.bitdly0
        bitdly1 := if s.board.params.flags.bitdly1En then bitDelayLanes s.board.params.bitdlyW1
          else s.phy.bitdly1 } } :=
  calc repeatExec .phyInit 4 s
    _ = repeatExec .phyInit 3 _ := repeatExec_succ (exec_phyInit_lp4 ht hf)
    _ = repeatExec .phyInit 2 _ := repeatExec_succ (exec_phyInit_caDelay ht rfl)
    _ = repeatExec .phyInit 1 _ := repeatExec_succ (exec_phyInit_bitdly0 ht rfl)
    _ = _ := repeatExec_succ (exec_phyInit_bitdly1 ht rfl)

/-- Settles O23: the eleven micro-steps in three parts, and the technology's values as R185 to R187 state them. -/
theorem phyInitRunsToReady : Obligations.PhyInitRunsToReady := by
  intro s ht hf
  simp only [← vrefOf_eq_getD, ← dbiOf_eq, ← odtOverrideOf_eq, List.append_assoc]
  exact calc repeatExec .phyInit (4 + (3 + 4)) s
    _ = repeatExec .phyInit (3 + 4) _ := repeatExec_add (3 + 4) (repeatExec_phyInit_tables ht hf)
    _ = repeatExec .phyInit 4 _ := repeatExec_add 4 (repeatExec_phyInit_lanes ht rfl)
    _ = _ := repeatExec_phyInit_optional ht rfl

/-! ## What PHY_INIT, DFI_INIT and RD_CAL leave unchanged (R180, R210, R250, R313, R314) -/

/-- All that PHY_INIT may change between `s` and `t`: of the PHY it keeps what the handshake and calibration use. -/
def PhyInitFrame (s t : State) : Prop :=
  t = { s with
    phy := { t.phy with
      initDone := s.phy.initDone, calRankSel := s.phy.calRankSel, calTrig := s.phy.calTrig
      calDone := s.phy.calDone, calFail := s.phy.calFail, calReadout := s.phy.calReadout
      coarseBase := s.phy.coarseBase }
    regWrites := t.regWrites, stage := t.stage, ovr := t.ovr, busy := t.busy, cmdDone := t.cmdDone
    result := t.result, fsm := t.fsm, curCmd := t.curCmd }

/-- All that DFI_INIT may change between `s` and `t`. -/
def DfiInitFrame (s t : State) : Prop :=
  t = { s with
    ctl := { s.ctl with
      arefEn := t.ctl.arefEn, initCpl := t.ctl.initCpl, srReq := t.ctl.srReq, mrAddr := t.ctl.mrAddr
      mrData := t.ctl.mrData, mrBusy := t.ctl.mrBusy, vendorTim := t.ctl.vendorTim }
    phy := { s.phy with initDone := t.phy.initDone }
    phyStarted := t.phyStarted, mrIdx := t.mrIdx, stage := t.stage, ovr := t.ovr, busy := t.busy
    cmdDone := t.cmdDone, result := t.result, fsm := t.fsm, curCmd := t.curCmd }

/-- All that RD_CAL may change between `s` and `t`. -/
def RdCalFrame (s t : State) : Prop :=
  t = { s with
    phy := { s.phy with
      calRankSel := t.phy.calRankSel, calTrig := t.phy.calTrig, calDone := t.phy.calDone
      calFail := t.phy.calFail, coarseBase := t.phy.coarseBase }
    calBase := t.calBase, att := t.att, pass := t.pass, passOk := t.passOk, attempts := t.attempts
    stage := t.stage, ovr := t.ovr, busy := t.busy, cmdDone := t.cmdDone, result := t.result, fsm := t.fsm
    curCmd := t.curCmd }

/-- Split by FSM, and by the technology or the flag where the micro-step asks one. -/
theorem phyInitMicro_frame (s : State) : PhyInitFrame s (microAlone (subMicro .phyInit s)) := by
  simp only [subMicro, phyInitMicro]
  repeat' split
  all_goals rfl

/-- Split by FSM, and by what a poll, the MR list or the technology decides. -/
theorem dfiInitMicro_frame (s : State) : DfiInitFrame s (microAlone (subMicro .dfiInit s)) := by
  simp only [subMicro, dfiInitMicro]
  repeat' split
  all_goals rfl

/-- Split by FSM, and by the poll, the pass and the attempts left. -/
theorem rdCalMicro_frame (s : State) : RdCalFrame s (microAlone (subMicro .rdCal s)) := by
  simp only [subMicro, rdCalMicro]
  repeat' split
  all_goals rfl

theorem exec_phyInit_frame {s t : State} (h : exec .phyInit s = .next t) : PhyInitFrame s t :=
  exec_related (by simp) (phyInitMicro_frame s) rfl rfl rfl rfl h

theorem exec_dfiInit_frame {s t : State} (h : exec .dfiInit s = .next t) : DfiInitFrame s t :=
  exec_related (by simp) (dfiInitMicro_frame s) rfl rfl rfl rfl h

theorem exec_rdCal_frame {s t : State} (h : exec .rdCal s = .next t) : RdCalFrame s t :=
  exec_related (by simp) (rdCalMicro_frame s) rfl rfl rfl rfl h

/-- Settles O38: in each command's frame DRAM, the board, the map and AG stand unchanged, so every byte does, by cell
and by offset. -/
theorem phyDfiCalFrame : Obligations.PhyDfiCalFrame := by
  refine ⟨fun s t h => ?phy, fun s t h => ?dfi, fun s t h => ?cal⟩
  case phy =>
    have hframe := exec_phyInit_frame h
    exact ⟨hframe, memory_unchanged (congrArg State.dram hframe :) fun a => (congrArg (cellOf · a) hframe :)⟩
  case dfi =>
    have hframe := exec_dfiInit_frame h
    exact ⟨hframe, memory_unchanged (congrArg State.dram hframe :) fun a => (congrArg (cellOf · a) hframe :)⟩
  case cal =>
    have hframe := exec_rdCal_frame h
    exact ⟨hframe, memory_unchanged (congrArg State.dram hframe :) fun a => (congrArg (cellOf · a) hframe :)⟩

end Sys2Proof.Machine

namespace Sys2Proof.Machine

/-! SUPPORT. The DFI handshake's statements (44_dfi_handshake.md): the mode-register lists, DFI_INIT's micro-steps, one
mode-register write end to end, and the PHY init engine and the controller mode logic. -/

/-! ## Mode registers (R221, R222, R224) -/

/-- The training-enable bit, as a power of two (R222). -/
theorem one_shiftLeft_eq (te : Nat) : 1#32 <<< te = BitVec.ofNat 32 (2 ^ te) :=
  BitVec.eq_of_toNat_eq (by simp [Nat.shiftLeft_eq])

/-- Below bit 32 only bit `te` of that word is set. -/
theorem getLsbD_ofNat_two_pow {k : Nat} (hk : k < 32) (te : Nat) :
    (BitVec.ofNat 32 (2 ^ te)).getLsbD k = (k == te) := by
  rw [BitVec.getLsbD_ofNat, decide_eq_true hk, Bool.true_and, Nat.testBit_two_pow, beq_eq_decide]
  exact decide_eq_decide.mpr eq_comm

/-- Settles O25: three lists stand as stated; of DDR4's only the two MR6 values are left to read bit by bit. -/
theorem mrListByTechnology : Obligations.MrListByTechnology := by
  intro mr te _
  refine ⟨rfl, ⟨_, _, rfl, ?on, ?off, fun k hk => ?bits⟩, rfl, rfl, rfl, rfl, rfl, rfl⟩
  case on => rw [one_shiftLeft_eq]
  case off => rw [one_shiftLeft_eq]
  case bits =>
    rw [one_shiftLeft_eq, BitVec.getLsbD_or, BitVec.getLsbD_and, BitVec.getLsbD_not, getLsbD_ofNat_two_pow hk,
      decide_eq_true hk, Bool.true_and]
    exact ⟨rfl, rfl⟩

/-- Every technology has mode registers to write (R221). -/
theorem boardMrList_isEmpty (b : Board) : (boardMrList b).isEmpty = false := by
  unfold boardMrList
  cases b.params.tech <;> rfl

/-- Rank 0 is always configured (R224). -/
theorem rankMask_zero (rankw : Nat) : (rankMask rankw).getLsbD 0 = true := by
  unfold rankMask
  split <;> rfl

/-- Rank 1 is configured with two ranks only (R224). -/
theorem rankMask_one_iff (rankw : Nat) : (rankMask rankw).getLsbD 1 = true ↔ rankw = 1 := by
  unfold rankMask
  split
  · exact iff_of_true rfl ‹_›
  · exact iff_of_false (by decide) ‹_›

/-! ## DFI_INIT (R210 to R225) -/

/-- The poll of the PHY passes once its engine has set INIT_DONE (R214). -/
theorem exec_dfiInit_waitPhy {s : State} (ht : s.turn = .sequencer) (hf : s.fsm = .dfiWaitPhy)
    (hdone : s.phy.initDone = true) : exec .dfiInit s = .next { s with fsm := .dfiSrExit } := by
  rw [exec_sequencer_at ht hf]
  simp only [subMicro, dfiInitMicro, hdone, if_true, microAlone_goTo]

/-- The poll of OPMODE passes in NORMAL, to the head of a list that is never empty (R216, R221). -/
theorem exec_dfiInit_waitNormal {s : State} (ht : s.turn = .sequencer) (hf : s.fsm = .dfiWaitNormal)
    (hnormal : s.ctl.opmode = .normal) : exec .dfiInit s = .next { s with fsm := .dfiMrwSetup, mrIdx := 0 } := by
  rw [exec_sequencer_at ht hf]
  simp only [subMicro, dfiInitMicro, hnormal, boardMrList_isEmpty, if_true, Bool.false_eq_true, if_false,
    microAlone_goTo]

/-- The set-up writes the current entry's address and value (R220, R224). -/
theorem exec_dfiInit_mrwSetup {s : State} {i : MrIndex} {v : Word} (ht : s.turn = .sequencer)
    (hf : s.fsm = .dfiMrwSetup) (hentry : (boardMrList s.board)[s.mrIdx]? = some (i, v)) :
    exec .dfiInit s = .next { s with
      fsm := .dfiMrwTrig
      ctl := { s.ctl with mrAddr := { mask := rankMask (geomFields s.ag).rankw, idx := i }, mrData := v } } := by
  rw [exec_sequencer_at ht hf]
  simp only [subMicro, dfiInitMicro, hentry, microAlone_goTo]

theorem exec_dfiInit_mrwTrig {s : State} (ht : s.turn = .sequencer) (hf : s.fsm = .dfiMrwTrig) :
    exec .dfiInit s = .next { s with fsm := .dfiMrwPoll, ctl := { s.ctl with mrBusy := true } } :=
  exec_sequencer_at ht hf

/-- The poll of MR_BUSY passes at 0: to the next entry while one remains, else past the list (R217, R225). -/
theorem exec_dfiInit_mrwPoll {s : State} (ht : s.turn = .sequencer) (hf : s.fsm = .dfiMrwPoll)
    (hidle : s.ctl.mrBusy = false) : exec .dfiInit s = .next { s with
      fsm := if s.mrIdx + 1 < (boardMrList s.board).length then .dfiMrwSetup else .dfiVendor
      mrIdx := s.mrIdx + 1 } := by
  rw [exec_sequencer_at ht hf]
  simp only [subMicro, dfiInitMicro, hidle, Bool.false_eq_true, if_false, microAlone_ite, microAlone_goTo]
  split <;> rfl

/-- The vendor timing is LPDDR4's alone (R223). -/
theorem exec_dfiInit_vendor {s : State} (ht : s.turn = .sequencer) (hf : s.fsm = .dfiVendor) :
    exec .dfiInit s = .next { s with
      fsm := .dfiArefOn
      ctl := { s.ctl with
        vendorTim := if s.board.params.tech = .lpddr4 then Config.lp4VendorValue else s.ctl.vendorTim } } := by
  rw [exec_sequencer_at ht hf]
  simp only [subMicro, dfiInitMicro, microAlone_goTo]
  split <;> rfl

/-- Settles O24: the polls, the set-up and the vendor step have lemmas of their own, every other state computes once
FSM is known. -/
theorem dfiHandshakeTable : Obligations.DfiHandshakeTable := by
  intro s ht
  refine ⟨?arefOff, ?initSet, ?initClr, exec_dfiInit_waitPhy ht, ?srExit, exec_dfiInit_waitNormal ht,
    fun i v => exec_dfiInit_mrwSetup ht, exec_dfiInit_mrwTrig ht, exec_dfiInit_mrwPoll ht, exec_dfiInit_vendor ht,
    ?arefOn⟩
  all_goals exact exec_sequencer_at ht

/-! ## One mode-register write, end to end (R220, R224, R232) -/

/-- The state at the poll after the set-up of an entry and its trigger; repeatExec_dfiInit_to_mrwPoll ties it to the
model. -/
def atMrwPoll (i : MrIndex) (v : Word) (s : State) : State :=
  { s with
    fsm := .dfiMrwPoll
    ctl := { s.ctl with
      mrAddr := { mask := rankMask (geomFields s.ag).rankw, idx := i }, mrData := v, mrBusy := true } }

theorem repeatExec_dfiInit_to_mrwPoll {s : State} {i : MrIndex} {v : Word} (ht : s.turn = .sequencer)
    (hf : s.fsm = .dfiMrwSetup) (hentry : (boardMrList s.board)[s.mrIdx]? = some (i, v)) :
    repeatExec .dfiInit 2 s = .next (atMrwPoll i v s) :=
  calc repeatExec .dfiInit 2 s
    _ = repeatExec .dfiInit 1 _ := repeatExec_succ (exec_dfiInit_mrwSetup ht hf hentry)
    _ = _ := repeatExec_succ (exec_dfiInit_mrwTrig ht rfl)

/-- At that poll the MR engine writes the entry to the configured ranks and clears MR_BUSY (R232). -/
theorem mrEngineStep_atMrwPoll (i : MrIndex) (v : Word) (s : State) :
    mrEngineStep (atMrwPoll i v s) = { atMrwPoll i v s with
      ctl := { (atMrwPoll i v s).ctl with mrBusy := false }
      devMr := writeDeviceMr s.board.dev { mask := rankMask (geomFields s.ag).rankw, idx := i } v s.devMr } :=
  mrEngineStep_of_busy rfl

/-- Settles O26: set-up and trigger, the MR engine's step and the poll in a row; which rank then holds the value is
the rank mask read bit by bit. -/
theorem modeRegisterWriteReachesDevice : Obligations.ModeRegisterWriteReachesDevice := by
  intro s i v ht hf hentry
  have hpoll := exec_dfiInit_mrwPoll (s := mrEngineStep (atMrwPoll i v s)) (by rw [mrEngineStep_atMrwPoll]; exact ht)
    (by rw [mrEngineStep_atMrwPoll]; rfl) (by rw [mrEngineStep_atMrwPoll])
  refine ⟨_, _, _, repeatExec_dfiInit_to_mrwPoll ht hf hentry, rfl, rfl, rfl, hpoll, ?idx, ?busy,
    fun j => ?rank0, fun j => ?rank1⟩ <;> rw [mrEngineStep_atMrwPoll]
  case idx => rfl
  case rank0 => simp only [writeDeviceMr_rank0, rankMask_zero, true_and]
  case rank1 => simp only [writeDeviceMr_rank1, rankMask_one_iff, and_comm]

/-! ## The PHY init engine and the controller mode logic (R230, R231) -/

/-- Settles O33: the engine's rule is enabled or it is not (log 20). -/
theorem phyInitEngineStep : Obligations.PhyInitEngineStep := by
  intro s ht
  rw [step_env ht, envStep, phyInitStep]
  exact ⟨fun hstarted hrst hidle => by rw [if_pos ⟨hstarted, hrst, hidle⟩], fun hoff => by rw [if_neg hoff]⟩

/-- When the mode logic may move to `m` (R231). -/
theorem opmodeEnabled_iff (m : OpMode) (s : State) : opmodeEnabled m s = true ↔
    s.ctl.opmode ≠ .normal ∧ (m ≠ .normal ∨ s.ctl.srReq = false ∧ s.phy.initDone = true) := by
  unfold opmodeEnabled
  cases s.ctl.opmode with
  | normal => simp
  | init | selfRefresh => cases m <;> simp

theorem opmodeStep_of_enabled {m : OpMode} {s : State} (h : opmodeEnabled m s = true) :
    opmodeStep m s = { s with ctl := { s.ctl with opmode := m } } :=
  if_pos h

theorem opmodeStep_of_not_enabled {m : OpMode} {s : State} (h : ¬ opmodeEnabled m s = true) : opmodeStep m s = s :=
  if_neg h

/-- Settles O34: the first case is the one in which the mode logic is enabled. -/
theorem controllerModeLogic : Obligations.ControllerModeLogic := by
  intro s m ht
  rw [step_env ht, envStep]
  refine ⟨fun hne hm => ?moves, fun _ hm hnot => ?early, fun hnormal => ?stays⟩
  case moves => rw [opmodeStep_of_enabled ((opmodeEnabled_iff m s).mpr ⟨hne, hm⟩)]
  case early =>
    rw [opmodeStep_of_not_enabled fun hen => ?_]
    obtain ⟨-, hmoves | hready⟩ := (opmodeEnabled_iff m s).mp hen
    · exact hmoves hm
    · exact hnot hready
  case stays => rw [opmodeStep_of_not_enabled fun hen => opmodeEnabled_not_normal hen hnormal]

end Sys2Proof.Machine

namespace Sys2Proof.Machine

/-! SUPPORT. Read calibration's statements (45_read_calibration.md): RD_CAL's micro-steps with the ways out of its poll
and of 0x84, the coarse base, the measure that bounds a calibration, and the calibration engine. -/

/-! ## What RD_CAL asks (R252, R254, R257) -/

theorem calComplete_iff (s : State) : calComplete s = true ↔
    s.phy.calDone &&& calMask s.board (geomFields s.ag).half = calMask s.board (geomFields s.ag).half :=
  beq_iff_eq

theorem calPollEnds_eq_false_iff (s : State) :
    calPollEnds s = false ↔ calComplete s = false ∧ s.phy.calFail = false :=
  Bool.or_eq_false_iff

theorem secondPassRuns_iff (c : SecondPassCond) (rankw : Nat) : secondPassRuns c rankw = true ↔
    match c with
    | .rankw0 => rankw = 0
    | .rankw1 => rankw = 1 := by
  cases c <;> exact beq_iff_eq

/-- Where the second pass is a single rank's, the first one targets every configured rank (R254). -/
theorem calTargets_rankw0 (rankw : Nat) (pass : Fin 2) :
    calTargets .rankw0 rankw pass = if pass = 1 then 0b10 else if rankw = 1 then 0b11 else 0b01 :=
  match pass with
  | 0 => rfl
  | 1 => rfl

/-- Where it is two ranks', each pass targets one slot (R254). -/
theorem calTargets_rankw1 (rankw : Nat) (pass : Fin 2) :
    calTargets .rankw1 rankw pass = if pass = 1 then 0b10 else 0b01 :=
  match pass with
  | 0 => rfl
  | 1 => rfl

/-! ## RD_CAL's micro-steps (R250 to R257) -/

theorem exec_rdCal_start {s : State} (ht : s.turn = .sequencer) (hf : s.fsm = .calStart) :
    exec .rdCal s = .next { s with fsm := .calAttempt, att := 0 } :=
  exec_sequencer_at ht hf

theorem exec_rdCal_attempt {s : State} (ht : s.turn = .sequencer) (hf : s.fsm = .calAttempt) :
    exec .rdCal s = .next { s with fsm := .calTrig, att := s.att + 1, pass := 0 } :=
  exec_sequencer_at ht hf

theorem exec_rdCal_trig {s : State} (ht : s.turn = .sequencer) (hf : s.fsm = .calTrig) :
    exec .rdCal s = .next { s with
      fsm := .calPoll
      phy := { s.phy with
        calRankSel := calTargets s.board.secondPass (geomFields s.ag).rankw s.pass
        calDone := 0, calFail := false, calTrig := true } } :=
  exec_sequencer_at ht hf

/-- The poll that ends keeps which of the two ended it: completion wins over the flag (R252, R319). -/
theorem exec_rdCal_poll {s : State} (ht : s.turn = .sequencer) (hf : s.fsm = .calPoll) (hends : calPollEnds s = true) :
    exec .rdCal s = .next { s with fsm := .calUntrig, passOk := calComplete s } := by
  rw [exec_sequencer .rdCal s (by simp) ht]
  simp only [subMicro, rdCalMicro, hf, hends, if_true, microAlone_goTo]

/-- The four ways out of 0x84: the second pass, the base, another attempt, or the end in CAL_FAIL (R250, R255). -/
theorem exec_rdCal_untrig {s : State} (ht : s.turn = .sequencer) (hf : s.fsm = .calUntrig) :
    exec .rdCal s = .next (
      if s.passOk = true then
        if s.pass = 0 ∧ secondPassRuns s.board.secondPass (geomFields s.ag).rankw = true then
          { s with fsm := .calTrig, pass := 1, phy := { s.phy with calTrig := false } }
        else { s with fsm := .calDerive, phy := { s.phy with calTrig := false } }
      else if s.att < 5 then { s with fsm := .calAttempt, phy := { s.phy with calTrig := false } }
      else { s with
        fsm := .idle, busy := false, cmdDone := true, result := .calFail, stage := .calFailed, attempts := s.att
        phy := { s.phy with calTrig := false } }) := by
  rw [exec_sequencer_at ht hf]
  simp only [subMicro, rdCalMicro, microAlone_ite, microAlone_goTo, microAlone_fin]
  rfl

theorem exec_rdCal_derive {s : State} (ht : s.turn = .sequencer) (hf : s.fsm = .calDerive) :
    exec .rdCal s = .next { s with
      fsm := .idle, busy := false, cmdDone := true, result := .ok, stage := .operational, attempts := s.att
      calBase := coarseBaseOf s.phy.calReadout
      phy := { s.phy with coarseBase := coarseBaseOf s.phy.calReadout } } :=
  exec_sequencer_at ht hf

/-- Settles O27: the trigger's targets by the board's second-pass condition; the poll's two ends are completion and the
flag; each exit of 0x84 is one branch of exec_rdCal_untrig. -/
theorem rdCalMicroSteps : Obligations.RdCalMicroSteps := by
  intro s ht
  have hsecond := secondPassRuns_iff s.board.secondPass (geomFields s.ag).rankw
  refine ⟨exec_rdCal_start ht, exec_rdCal_attempt ht, fun hf => ?trig, fun hf hdone => ?complete,
    fun hf hdone hfail => ?failed, fun hf hok hpass hsec => ?second, fun hf hok hno => ?derive,
    fun hf hok hatt => ?retry, fun hf hok hatt => ?calFail⟩
  case trig =>
    rw [exec_rdCal_trig ht hf]
    cases s.board.secondPass with
    | rankw0 => rw [calTargets_rankw0]
    | rankw1 => rw [calTargets_rankw1]
  case complete =>
    have hcomplete : calComplete s = true := (calComplete_iff s).mpr hdone
    rw [exec_rdCal_poll ht hf (by rw [calPollEnds, hcomplete, Bool.true_or]), hcomplete]
  case failed =>
    have hnot : calComplete s = false := Bool.eq_false_iff.mpr (mt (calComplete_iff s).mp hdone)
    rw [exec_rdCal_poll ht hf (by rw [calPollEnds, hfail, Bool.or_true]), hnot]
  case second => rw [exec_rdCal_untrig ht hf, if_pos hok, if_pos ⟨hpass, hsecond.mpr hsec⟩]
  case derive =>
    have hnot : ¬(s.pass = 0 ∧ secondPassRuns s.board.secondPass (geomFields s.ag).rankw = true) :=
      fun ⟨hpass, hruns⟩ => hno ⟨hpass, hsecond.mp hruns⟩
    rw [exec_rdCal_untrig ht hf, if_pos hok, if_neg hnot]
  case retry => rw [exec_rdCal_untrig ht hf, if_neg (by simp [hok]), if_pos hatt]
  case calFail => rw [exec_rdCal_untrig ht hf, if_neg (by simp [hok]), if_neg (Nat.not_lt.mpr hatt)]

/-! ## The coarse base (R253) -/

theorem coarseBaseOf_toNat (r : Lanes Nat) : (coarseBaseOf r).toNat = (min (maxReadout r) 7 + 2) % 8 := by
  rw [coarseBaseOf, BitVec.toNat_ofNat, Nat.mod_mod]

theorem eq_maxReadout {r : Lanes Nat} {v : Nat} (hv : v = r.lane0 ∨ v = r.lane1 ∨ v = r.lane2 ∨ v = r.lane3)
    (h0 : r.lane0 ≤ v) (h1 : r.lane1 ≤ v) (h2 : r.lane2 ≤ v) (h3 : r.lane3 ≤ v) : v = maxReadout r := by
  unfold maxReadout
  omega

/-- Settles O28: the base of the last micro-step is the base of the largest readout. -/
theorem rdCalDerivesCoarseBase : Obligations.RdCalDerivesCoarseBase := by
  intro s v ht hf hv h0 h1 h2 h3
  rw [eq_maxReadout hv h0 h1 h2 h3]
  exact ⟨_, coarseBaseOf_toNat s.phy.calReadout, exec_rdCal_derive ht hf⟩

/-! ## The bound of a read calibration (R258) -/

/-- A pass belongs to an attempt that has begun, so at most four attempts follow it; before the first, five are left. -/
theorem PipelineInv.calRank_le {s : State} (h : PipelineInv s) : calRank s ≤ 37 := by
  have hbegun := h.seq.attemptBegun
  cases hf : s.fsm <;> rw [hf] at hbegun <;> simp only [calRank, hf]
  case calTrig | calPoll | calUntrig =>
    have hatt := hbegun rfl
    omega
  all_goals omega

/-- Every micro-step but a waiting poll either ends the command or brings it nearer to its end: an attempt costs one of
those left, a second pass comes once in an attempt. -/
theorem exec_rdCal_lowers_calRank {s t : State} (hinv : PipelineInv s) (ht : s.turn = .sequencer)
    (ho : microOwner s.fsm = some .rdCal) (hpoll : s.fsm = .calPoll → calPollEnds s = true)
    (h : exec .rdCal s = .next t) :
    (t.busy = false ∧ t.fsm = .idle ∧ (t.result = .ok ∨ t.result = .calFail ∧ t.attempts = 5))
      ∨ (microOwner t.fsm = some .rdCal ∧ calRank t < calRank s) := by
  have hpass := s.pass.isLt
  cases hf : s.fsm <;> rw [hf] at ho <;> cases ho
  case calStart =>
    rw [exec_rdCal_start ht hf] at h
    cases h
    exact .inr ⟨rfl, by simp only [calRank, hf]; omega⟩
  case calAttempt =>
    have hleft := hinv.seq.attemptLeft hf
    rw [exec_rdCal_attempt ht hf] at h
    cases h
    exact .inr ⟨rfl, by simp only [calRank, hf, Fin.val_zero]; omega⟩
  case calTrig =>
    rw [exec_rdCal_trig ht hf] at h
    cases h
    exact .inr ⟨rfl, by simp only [calRank, hf]; omega⟩
  case calPoll =>
    rw [exec_rdCal_poll ht hf (hpoll hf)] at h
    cases h
    exact .inr ⟨rfl, by simp only [calRank, hf]; omega⟩
  case calUntrig =>
    rw [exec_rdCal_untrig ht hf] at h
    cases h
    split
    · split
      · rename_i hsecond
        obtain ⟨hfirst, -⟩ := hsecond
        exact .inr ⟨rfl, by simp only [calRank, hf, hfirst, Fin.val_zero, Fin.val_one]; omega⟩
      · exact .inr ⟨rfl, by simp only [calRank, hf]; omega⟩
    · split
      · exact .inr ⟨rfl, by simp only [calRank, hf]; omega⟩
      · rename_i hnone
        exact .inl ⟨rfl, rfl, .inr ⟨rfl, Nat.le_antisymm hinv.seq.attempts.1 (Nat.le_of_not_lt hnone)⟩⟩
  case calDerive =>
    rw [exec_rdCal_derive ht hf] at h
    cases h
    exact .inl ⟨rfl, rfl, .inl rfl⟩

/-- All of the state that the measure reads. -/
def calProgress (s : State) : Micro × Nat × Fin 2 := (s.fsm, s.att, s.pass)

theorem calRank_eq_of_calProgress_eq {s t : State} (h : calProgress t = calProgress s) : calRank t = calRank s := by
  obtain ⟨hfsm, hatt, hpass⟩ : t.fsm = s.fsm ∧ t.att = s.att ∧ t.pass = s.pass := by simpa [calProgress] using h
  simp only [calRank, hfsm, hatt, hpass]

@[simp] theorem calProgress_passTurn (s : State) : calProgress (passTurn s) = calProgress s := by simp [calProgress]

@[simp] theorem calProgress_nextLine (s : State) : calProgress (nextLine s) = calProgress s := rfl

@[simp] theorem calProgress_memWrite (s : State) (off n v : Nat) :
    calProgress (memWrite s off n v) = calProgress s := by
  simp [calProgress]

@[simp] theorem calProgress_envStep (m : EnvMove) (s : State) : calProgress (envStep m s) = calProgress s := by
  obtain ⟨p, c, y, d, e⟩ := envStep_eq m s
  rw [e]
  rfl

/-- While a command runs, another issue is an overrun at most (R313). -/
theorem issue_of_busy {s : State} (i : Instr) (hb : s.busy = true) : ∃ o, issue i s = { s with ovr := o } := by
  rcases issue_cases i s with ⟨-, e⟩ | ⟨-, -, e⟩ | ⟨-, hidle, -⟩ | ⟨-, hidle, -⟩
  · exact ⟨s.ovr, e⟩
  · exact ⟨true, e⟩
  all_goals simp [hb] at hidle

theorem issueIllegal_of_busy {s : State} (w : Word) (hb : s.busy = true) :
    ∃ o, issueIllegal w s = { s with ovr := o } := by
  rcases issueIllegal_cases w s with ⟨-, e⟩ | ⟨-, -, e⟩ | ⟨-, hidle, -⟩
  · exact ⟨s.ovr, e⟩
  · exact ⟨true, e⟩
  · simp [hb] at hidle

/-- While a command runs, no access of the host moves the sequencer. -/
theorem hostStep_calProgress {s u : State} (ht : s.turn = .host) (hb : s.busy = true) (h : hostStep s = .next u) :
    calProgress u = calProgress s := by
  rcases hostStep_cases ht h with ⟨i, rfl⟩ | ⟨w, rfl⟩ | ⟨x, rfl⟩ | ⟨off, n, v, -, rfl⟩ | ⟨hh, d, rfl⟩
  · obtain ⟨o, e⟩ := issue_of_busy i hb
    rw [e]
    rfl
  · obtain ⟨o, e⟩ := issueIllegal_of_busy w hb
    rw [e]
    rfl
  · rfl
  · simp
  · rfl

theorem step_calProgress {s t : State} (hseq : s.turn ≠ .sequencer) (hreset : s.turn ≠ .blockReset)
    (hb : s.busy = true) (h : step s = .next t) : calProgress t = calProgress s := by
  rcases step_cases h with ⟨ht, -⟩ | ⟨m, -, rfl⟩ | ⟨ht, -⟩ | ⟨ht, u, rfl, hu⟩
  · exact absurd ht hseq
  · rw [calProgress_passTurn, calProgress_envStep]
  · exact absurd ht hreset
  · rw [calProgress_passTurn, hostStep_calProgress ht hb hu]

/-- Settles O29: the bound, the micro-steps that lower it, and the other agents, which leave all it reads alone. -/
theorem rdCalEndsWithinBound : Obligations.RdCalEndsWithinBound := by
  refine ⟨fun s => PipelineInv.calRank_le, fun s t => exec_rdCal_lowers_calRank, fun s t hseq hreset hb h => ?others⟩
  have hkept := step_calProgress hseq hreset hb h
  exact ⟨congrArg Prod.fst hkept, calRank_eq_of_calProgress_eq hkept⟩

/-! ## The calibration engine (R256) -/

theorem calEngineStep_of_enabled {s : State} (bits : BitVec 4) (fail : Bool) (r : Lanes Nat)
    (htrig : s.phy.calTrig = true) (hwait : calPollEnds s = false) :
    calEngineStep bits fail r s = { s with phy := { s.phy with
      calDone := s.phy.calDone ||| bits, calFail := s.phy.calFail || fail
      calReadout := clipReadouts s.board.readoutW r } } :=
  if_pos ⟨htrig, hwait⟩

theorem calEngineStep_of_not_enabled {s : State} (bits : BitVec 4) (fail : Bool) (r : Lanes Nat)
    (hoff : ¬(s.phy.calTrig = true ∧ calPollEnds s = false)) : calEngineStep bits fail r s = s :=
  if_neg hoff

/-- Settles O35: the engine's two branches; a poll still waiting has seen no flag, so the flag is the drawn one. -/
theorem calibrationEngineStep : Obligations.CalibrationEngineStep := by
  intro s bits fail r ht
  rw [step_env ht, envStep]
  refine ⟨fun htrig hwait => ?responds, fun hoff => by rw [calEngineStep_of_not_enabled bits fail r hoff]⟩
  obtain ⟨-, hnofail⟩ := (calPollEnds_eq_false_iff s).mp hwait
  rw [calEngineStep_of_enabled bits fail r htrig hwait, hnofail, Bool.false_or]
  refine ⟨_, rfl, ?_⟩
  rw [passTurn_phy]
  exact ⟨rfl, rfl, rfl, rfl, rfl, rfl, rfl⟩

end Sys2Proof.Machine

namespace Sys2Proof.Machine

/-! SUPPORT. BRINGUP's statements (46_bringup.md): its step as the step of the current sub-command on the operand read
then, the passage from one sub-command to the next, and its three ends. -/

/-! ## The current sub-command and its operand (R270, R271, R355) -/

/-- BRINGUP is no sub-command of itself (R271). -/
theorem ne_bringup_of_subCommands {j : Nat} {i : Instr} (hi : subCommands[j]? = some i) : i ≠ .bringup := by
  rintro rfl
  exact absurd (List.mem_of_getElem? hi) (by decide)

/-- In a sub-command's own micro-steps GEOM is read at 0x20 and 0x28 alone (R355, log 9). -/
theorem readOperand_of_owner {i : Instr} {s : State} (ho : microOwner s.fsm = some i) :
    readOperand i s = { s with opGeom := if s.fsm = .amValidate ∨ s.fsm = .odtMap then s.geom else s.opGeom } := by
  unfold readOperand
  congr 1
  cases hf : s.fsm <;> rw [hf] at ho <;> cases ho <;> rfl

/-- RD_CAL takes no operand from GEOM (R250). -/
theorem readOperand_rdCal (s : State) : readOperand .rdCal s = s := by
  simp only [readOperand, latchedGeom, ite_self]

/-! ## BRINGUP's step by its sub-command's (R270, R272) -/

/-- The sub-command's step as the micro-step that BRINGUP's own is made of (R22). -/
theorem exec_sub_eq {s t : State} {i : Instr} (ht : s.turn = .sequencer) (hi : subCommands[s.sub]? = some i)
    (he : exec i (readOperand i s) = .next t) : microAlone (subMicro i (readOperand i s)) = t := by
  rw [exec_sequencer i (readOperand i s) (ne_bringup_of_subCommands hi) ht] at he
  injection he

/-- Unless a sub-command that has a successor ends OK, BRINGUP's step is the sub-command's own. -/
theorem exec_bringup_eq_exec_sub {s t : State} {i : Instr} (ht : s.turn = .sequencer)
    (hi : subCommands[s.sub]? = some i) (he : exec i (readOperand i s) = .next t)
    (hstays : t.fsm ≠ .idle ∨ t.result ≠ .ok ∨ s.sub = 6) : exec .bringup s = .next t := by
  have he := exec_sub_eq ht hi he
  rw [exec_bringup_sequencer s ht, ← he]
  rcases bringupMicro_cases s i hi with ⟨u, hm, hb⟩ | ⟨r, u, hm, -, hb⟩ | ⟨u, hm, -, hb⟩ | ⟨u, j, hm, hj, -⟩
  · rw [hm, hb]
  · rw [hm, hb]
  · rw [hm, hb]
  · rw [hm] at he
    subst he
    rcases hstays with hfsm | hresult | hlast
    · exact absurd rfl hfsm
    · exact absurd rfl hresult
    · rw [hlast] at hj
      cases hj

/-- A sub-command that ends OK hands over to its successor: of its end, BUSY, DONE and RESULT do not reach STATUS. -/
theorem exec_bringup_starts_next {s t : State} {i k : Instr} (ht : s.turn = .sequencer)
    (hi : subCommands[s.sub]? = some i) (ho : microOwner s.fsm = some i) (hk : subCommands[s.sub + 1]? = some k)
    (he : exec i (readOperand i s) = .next t) (hidle : t.fsm = .idle) (hok : t.result = .ok) :
    exec .bringup s = .next { t with
      busy := s.busy, cmdDone := s.cmdDone, result := s.result, sub := s.sub + 1, fsm := firstMicro k } := by
  obtain rfl := exec_sub_eq ht hi he
  rw [exec_bringup_sequencer s ht]
  rcases bringupMicro_cases s i hi with ⟨u, hm, -⟩ | ⟨r, u, hm, hr, -⟩ | ⟨u, hm, hnone, -⟩ | ⟨u, j, hm, hj, hb⟩
  case inl =>
    have howner := subMicro_go_owner (s := readOperand i s) ho hm
    rw [hm, microAlone_go] at hidle
    rw [hidle] at howner
    cases howner
  case inr.inl =>
    rw [hm] at hok
    exact absurd hok hr
  case inr.inr.inl =>
    rw [hk] at hnone
    cases hnone
  case inr.inr.inr =>
    obtain rfl : k = j := Option.some.inj (hk.symm.trans hj)
    obtain ⟨-, -, -, -, -, (hbusy : u.busy = s.busy), (hdone : u.cmdDone = s.cmdDone),
      (hresult : u.result = s.result), -⟩ := subMicro_keeps (.inr ⟨_, hm⟩)
    rw [hb, hm, ← hbusy, ← hdone, ← hresult]
    rfl

/-- Settles O30: on the operand read then, the sub-command's step is BRINGUP's, or it hands over to the next. -/
theorem bringupRunsItsSubCommands : Obligations.BringupRunsItsSubCommands := by
  intro s i ht hi ho
  rw [← readOperand_of_owner ho]
  obtain ⟨t, he⟩ := exec_next i (readOperand i s)
  exact ⟨t, he, exec_bringup_eq_exec_sub ht hi he,
    fun k hidle hok hk => exec_bringup_starts_next ht hi ho hk he hidle hok⟩

/-! ## The ends of BRINGUP (R270, R310, R312) -/

/-- In its last sub-command BRINGUP does what RD_CAL does, to its end (R270). -/
theorem exec_bringup_of_last_sub {s : State} (ht : s.turn = .sequencer) (hsub : s.sub = 6) :
    exec .bringup s = exec .rdCal s := by
  obtain ⟨t, he⟩ := exec_next .rdCal s
  rw [he]
  exact exec_bringup_eq_exec_sub ht (by rw [hsub]; rfl) (by rw [readOperand_rdCal, he]) (.inr (.inr hsub))

/-- Settles O31: the two ends in the last sub-command are RD_CAL's; CFG_ADDRMAP's failing check on the GEOM read then
leaves no OK result to go on from. -/
theorem bringupEnds : Obligations.BringupEnds := by
  intro s ht
  refine ⟨fun hsub hf => ?operational, fun hsub hf hinvalid => ?configInvalid, fun hsub hf hok hatt => ?calFail⟩
  case operational =>
    rw [exec_bringup_of_last_sub ht hsub, exec_rdCal_derive ht hf]
    exact ⟨_, rfl, rfl, rfl, rfl, rfl, rfl, rfl, rfl, rfl, rfl, rfl, rfl⟩
  case configInvalid =>
    have hread : readOperand .cfgAddrmap s = { s with opGeom := s.geom } := by
      rw [readOperand_of_owner (by rw [hf]; rfl), if_pos (.inl hf)]
    have hend : exec .cfgAddrmap (readOperand .cfgAddrmap s) = .next { s with
        fsm := .idle, busy := false, cmdDone := true, result := .configInvalid, fatal := true, opGeom := s.geom } := by
      rw [hread, exec_cfgAddrmap_validate (s := { s with opGeom := s.geom }) ht hf, hinvalid]
      rfl
    exact exec_bringup_eq_exec_sub ht (by rw [hsub]; rfl) hend (.inr (.inl (by simp)))
  case calFail =>
    rw [exec_bringup_of_last_sub ht hsub, exec_rdCal_untrig ht hf, if_neg (by simp [hok]),
      if_neg (Nat.not_lt.mpr hatt)]
    exact ⟨_, rfl, rfl, rfl, rfl, rfl, rfl, rfl, rfl, rfl⟩

end Sys2Proof.Machine

namespace Sys2Proof.Machine

/-! SUPPORT. The host procedures' statements (48_host_detection.md): the size calculator as a power of two, the offsets
that the column probe reaches, and what the probe reads back. -/

/-! ## The size calculator (R280, R281) -/

/-- The bytes of a word, and a bit for each address bit: the configured capacity (R76, R280). -/
theorem sizeOfGeometry_eq_capacity (g : Geometry) : sizeOfGeometry g = capacity g := by
  rw [sizeOfGeometry, bytesPerWord, capacity, two_pow_busShift, Nat.mul_right_comm, ← pow_add]
  congr 2
  omega

/-- The size counts the word-address bits and the bytes of a word in one exponent (R146, R280). -/
theorem sizeOfGeometry_eq_two_pow (g : Geometry) : sizeOfGeometry g = 2 ^ (hifWidth g + busShift g.half) := by
  rw [sizeOfGeometry_eq_capacity, pow_add]
  rfl

theorem sizeOfGeometry_lt_iff (g g' : Geometry) :
    sizeOfGeometry g < sizeOfGeometry g' ↔ hifWidth g + busShift g.half < hifWidth g' + busShift g'.half := by
  rw [sizeOfGeometry_eq_two_pow, sizeOfGeometry_eq_two_pow, Nat.pow_lt_pow_iff_right Nat.one_lt_two]

/-- A word has two bytes or four (R283). -/
theorem busShift_bounds (half : Nat) : 1 ≤ busShift half ∧ busShift half ≤ 2 := by
  unfold busShift
  split <;> decide

/-- Settles O46: the formula is the definition's, and the legal ranges bound the exponent. -/
theorem sizeIsCapacityInRange : Obligations.SizeIsCapacityInRange := by
  refine ⟨fun g => ⟨rfl, sizeOfGeometry_eq_capacity g⟩, fun g hg => ?_⟩
  obtain ⟨hcols8, hcols, hbanks, hbg, hrows14, hrows, hrank⟩ := (validGeometry_iff g).mp hg
  obtain ⟨hbw1, hbw⟩ := busShift_bounds g.half
  rw [sizeOfGeometry_eq_two_pow, hifWidth]
  exact ⟨Nat.pow_le_pow_right Nat.two_pos (by omega), Nat.pow_le_pow_right Nat.two_pos (by omega)⟩

/-- Settles O47: each width adds to the exponent, and a full bus adds one more than a half bus. -/
theorem sizeIsMonotone : Obligations.SizeIsMonotone := by
  intro g k
  simp only [sizeOfGeometry_lt_iff, hifWidth]
  refine ⟨?cols, ?rows, ?banks, ?bg, ?rankw, ?half⟩
  case half => exact Nat.add_lt_add_left (by decide : busShift 1 < busShift 0) _
  all_goals omega

/-! ## The offset of a column (R77, R142, R144) -/

/-- A gathered number has the bits it was gathered from, as far as its width goes. -/
theorem gather_eq_mod {n : Nat} {f : Nat → Bool} {x : Nat} (h : ∀ j, j < n → f j = x.testBit j) :
    gather n f = x % 2 ^ n := by
  induction n with
  | zero => rw [gather, pow_zero, Nat.mod_one]
  | succ k ih =>
    rw [gather, ih fun j hj => h j (Nat.lt_succ_of_lt hj), h k (Nat.lt_succ_self k), Nat.mod_pow_succ,
      ← Nat.toNat_testBit]
    cases x.testBit k <;> simp

/-- A field none of whose bits is set reads 0. -/
theorem gather_eq_zero {n : Nat} {f : Nat → Bool} (h : ∀ j, j < n → f j = false) : gather n f = 0 := by
  rw [gather_eq_mod (x := 0) (by simpa using h), Nat.zero_mod]

/-- The word address of column `x` with every other field 0: its low three bits stay, the others stand above the bank
groups. -/
def columnWord (g : Geometry) (x : Nat) : Nat := 2 ^ (3 + g.bg) * (x / 2 ^ 3) + x % 2 ^ 3

/-- The offset of lane `l` of column `x`. -/
def columnOffset (g : Geometry) (x l : Nat) : Nat := 2 ^ busShift g.half * columnWord g x + l

/-- The coordinates of lane `l` of column `x`, every other field 0. -/
def columnCoords (x l : Nat) : Coords := { rank := 0, bg := 0, bank := 0, row := 0, col := x, lane := l }

theorem columnWord_testBit (g : Geometry) (x p : Nat) : (columnWord g x).testBit p =
    if p < 3 then x.testBit p else if p < 3 + g.bg then false else x.testBit (p - g.bg) := by
  have hlow : x % 2 ^ 3 < 2 ^ (3 + g.bg) :=
    (Nat.mod_lt x (Nat.two_pow_pos 3)).trans_le (Nat.pow_le_pow_right Nat.two_pos (Nat.le_add_right 3 g.bg))
  rw [columnWord, Nat.testBit_two_pow_mul_add _ hlow, Nat.testBit_mod_two_pow, Nat.testBit_div_two_pow]
  split_ifs with hmap h3 h3
  · simp [h3]
  · simp [h3]
  · omega
  · congr 1
    omega

/-- The positions above the columns are clear in a column's word address. -/
theorem columnWord_testBit_above {g : Geometry} {x p : Nat} (hg : 3 ≤ g.cols) (hx : x < 2 ^ g.cols)
    (hp : g.bg + g.cols ≤ p) : (columnWord g x).testBit p = false := by
  rw [columnWord_testBit, if_neg (by omega), if_neg (by omega)]
  exact Nat.testBit_lt_two_pow (hx.trans_le (Nat.pow_le_pow_right Nat.two_pos (by omega)))

/-- An entry whose position is clear reads 0, enabled or not (R77). -/
theorem mappedBit_allocate_of_clear {off width j w : Nat} (h : w.testBit (off + j) = false) :
    mappedBit (allocate off width j) w = false := by
  unfold allocate
  split
  · exact h
  · rfl

/-- The decode finds the column and the lane again (R77, R142). -/
theorem decodeOffset_columnOffset {g : Geometry} (hg : validGeometry g = true) {x l : Nat} (hx : x < 2 ^ g.cols)
    (hl : l < 2 ^ busShift g.half) : decodeOffset (addrmap 3 g) g (columnOffset g x l) = columnCoords x l := by
  obtain ⟨hcols8, hcols, hbanks, hbg, -, hrows, -⟩ := (validGeometry_iff g).mp hg
  have hword : columnOffset g x l / 2 ^ busShift g.half = columnWord g x := by
    rw [columnOffset, Nat.mul_add_div (Nat.two_pow_pos _), Nat.div_eq_of_lt hl, Nat.add_zero]
  have hlane : columnOffset g x l % 2 ^ busShift g.half = l := by
    rw [columnOffset, Nat.mul_add_mod, Nat.mod_eq_of_lt hl]
  have habove {p : Nat} (hp : g.bg + g.cols ≤ p) := columnWord_testBit_above (by omega) hx hp
  simp only [decodeOffset, hword, hlane, columnCoords, Coords.mk.injEq, and_true]
  refine ⟨?rank, gather_eq_zero fun j hj => ?bg, gather_eq_zero fun j hj => ?bank, gather_eq_zero fun j hj => ?row, ?col⟩
  case rank =>
    rw [addrmap, mappedBit_allocate_of_clear (habove (by omega))]
    rfl
  case bg =>
    rw [addrmap, mappedBit_tabulate hj hbg, columnWord_testBit, if_neg (by omega), if_pos (by omega)]
  case bank => rw [addrmap, mappedBit_tabulate hj (by omega), habove (by omega)]
  case row => rw [addrmap, mappedBit_tabulate hj hrows, habove (by omega)]
  case col =>
    rw [gather_eq_mod (x := x) fun j hj => ?_, Nat.mod_eq_of_lt hx]
    rcases Nat.lt_or_ge j 3 with h3 | h3
    · rw [columnBit_low _ h3, columnWord_testBit, if_pos h3]
    · rw [columnBit_addrmap hcols h3 hj, columnWord_testBit, if_neg (by omega), if_neg (by omega),
        Nat.add_sub_cancel_left]

/-! ## The cell of a column (R78) -/

/-- What a device keeps of coordinates in a present rank and a wired lane lies inside it (R78). -/
theorem keptCoords_inside {d : DeviceGeometry} {c : Coords} (hrank : c.rank < d.ranks)
    (hwired : d.half = 1 → c.lane < 2) (hlane : c.lane < 4) : (keptCoords d c).Inside d :=
  ⟨hrank, hwired, Nat.mod_lt _ (Nat.two_pow_pos _), Nat.mod_lt _ (Nat.two_pow_pos _), Nat.mod_lt _ (Nat.two_pow_pos _),
    Nat.mod_lt _ (Nat.two_pow_pos _), hlane⟩

/-- Coordinates in a present rank and a wired lane reach the cell of what the device keeps of them (R78). -/
theorem deviceCell_of_present {d : DeviceGeometry} {c : Coords} (hrank : c.rank < d.ranks)
    (hwired : d.half = 1 → c.lane < 2) : deviceCell d c = some (cellKey d (keptCoords d c)) := by
  rw [deviceCell, if_neg (Nat.not_le.mpr hrank), if_neg fun ⟨hhalf, hlane⟩ => Nat.not_le.mpr (hwired hhalf) hlane]

/-- The state's map is that of its valid geometry, and the device has a rank and the lanes of the configured bus. -/
structure ColumnsMapped (s : State) : Prop where
  valid : validGeometry (geomFields s.ag) = true
  map : s.ctl.addrmap = addrmap 3 (geomFields s.ag)
  ranks : 1 ≤ s.board.dev.ranks
  wired : s.board.dev.half = 1 → (geomFields s.ag).half = 1

theorem ColumnsMapped.lane_wired {s : State} (h : ColumnsMapped s) {l : Nat}
    (hl : l < 2 ^ busShift (geomFields s.ag).half) : (s.board.dev.half = 1 → l < 2) ∧ l < 4 := by
  rw [two_pow_busShift] at hl
  refine ⟨fun hone => ?_, hl.trans_le (by split <;> decide)⟩
  rwa [if_pos (h.wired hone)] at hl

/-- A column's offset reaches the cell of what the device keeps of the column (R77, R78). -/
theorem ColumnsMapped.cellOf_columnOffset {s : State} (h : ColumnsMapped s) {x l : Nat}
    (hx : x < 2 ^ (geomFields s.ag).cols) (hl : l < 2 ^ busShift (geomFields s.ag).half) :
    cellOf s (columnOffset (geomFields s.ag) x l)
      = some (cellKey s.board.dev (columnCoords (x % 2 ^ s.board.dev.cols) l)) := by
  rw [cellOf, h.map, decodeOffset_columnOffset h.valid hx hl,
    deviceCell_of_present (c := columnCoords x l) h.ranks (h.lane_wired hl).1]
  simp [keptCoords, columnCoords]

/-- Two columns' offsets share a cell exactly when they share the lane and the column bits that the device has. -/
theorem ColumnsMapped.cellOf_eq_iff {s : State} (h : ColumnsMapped s) {x y l m : Nat}
    (hx : x < 2 ^ (geomFields s.ag).cols) (hl : l < 2 ^ busShift (geomFields s.ag).half)
    (hy : y < 2 ^ (geomFields s.ag).cols) (hm : m < 2 ^ busShift (geomFields s.ag).half) :
    cellOf s (columnOffset (geomFields s.ag) x l) = cellOf s (columnOffset (geomFields s.ag) y m)
      ↔ x % 2 ^ s.board.dev.cols = y % 2 ^ s.board.dev.cols ∧ l = m := by
  have inside {z k : Nat} (hk : k < 2 ^ busShift (geomFields s.ag).half) :
      (keptCoords s.board.dev (columnCoords z k)).Inside s.board.dev :=
    keptCoords_inside h.ranks (h.lane_wired hk).1 (h.lane_wired hk).2
  rw [h.cellOf_columnOffset hx hl, h.cellOf_columnOffset hy hm, Option.some.injEq]
  refine ⟨fun he => ?_, fun ⟨hcol, hlane⟩ => by rw [hcol, hlane]⟩
  have hkept : keptCoords s.board.dev (columnCoords x l) = keptCoords s.board.dev (columnCoords y m) :=
    cellKey_inj (inside hl) (inside hm) (by simpa [keptCoords, columnCoords] using he)
  exact ⟨congrArg Coords.col hkept, congrArg Coords.lane hkept⟩

/-! ## What the probe reads back (R282) -/

/-- Two offsets of one cell hold the same byte (R79). -/
theorem dramStored_congr {s : State} {a b : Nat} (h : cellOf s a = cellOf s b) : dramStored s a = dramStored s b := by
  unfold dramStored
  rw [h]

/-- A probe whose word shares its cells with the base word overwrites the base word. -/
theorem memRead_probeWrites_of_same {s : State} {a : Nat} (hcell : ∀ i, i < 4 → cellOf s i ≠ none)
    (hdistinct : ∀ i j, i < 4 → j < 4 → cellOf s i = cellOf s j → i = j)
    (hsame : ∀ i, i < 4 → cellOf s (a + i) = cellOf s i) : memRead (probeWrites s a) 0 4 = Config.probeV1 := by
  refine memRead_of_stored (v := Config.probeV1) fun i hi => ?_
  rw [Nat.zero_add, ← dramStored_congr (a := a + i) (by simpa [probeWrites] using hsame i hi), probeWrites]
  refine dramStored_memWrite_byte _ (fun j hj => ?_) (fun j k hj hk he => ?_) hi
  · simpa [hsame j hj] using hcell j hj
  · exact hdistinct j k hj hk (by simpa [hsame j hj, hsame k hk] using he)

/-- A probe whose word shares no cell with the base word leaves the base word's value. -/
theorem memRead_probeWrites_of_other {s : State} {a : Nat} (hcell : ∀ i, i < 4 → cellOf s i ≠ none)
    (hdistinct : ∀ i j, i < 4 → j < 4 → cellOf s i = cellOf s j → i = j)
    (hother : ∀ i j, i < 4 → j < 4 → cellOf s i ≠ cellOf s (a + j)) :
    memRead (probeWrites s a) 0 4 = Config.probeV0 := by
  refine memRead_of_stored (v := Config.probeV0) fun i hi => ?_
  rw [probeWrites, dramStored_memWrite_other _ _ _ _ _ fun j hj => by simpa using hother i j hi hj]
  exact dramStored_memWrite_byte _ (by simpa using hcell) (by simpa using hdistinct) hi

/-! ## What a device keeps of the probed columns (R78) -/

/-- A device with a column bit keeps columns 0 and 1 as they are. -/
theorem lowBit_mod {d u : Nat} (hd : 1 ≤ d) (hu : u < 2) : u % 2 ^ d = u :=
  Nat.mod_eq_of_lt (hu.trans_le (Nat.le_self_pow (by omega) 2))

/-- Of column 0 or 1 with bit `c` set, a device keeps what it keeps of the column itself exactly when it lacks the bit. -/
theorem setBit_mod_eq_iff {c d u v : Nat} (hc : 1 < c) (hd : 1 ≤ d) (hu : u < 2) (hv : v < 2) :
    (2 ^ c + u) % 2 ^ d = v % 2 ^ d ↔ d ≤ c ∧ u = v := by
  rcases Nat.lt_or_ge c d with hlt | hle
  · have htwice : 2 ^ c * 2 ≤ 2 ^ d := by
      rw [← pow_succ]
      exact Nat.pow_le_pow_right Nat.two_pos hlt
    have hbit : 2 ^ 2 ≤ 2 ^ c := Nat.pow_le_pow_right Nat.two_pos hc
    rw [Nat.mod_eq_of_lt (by omega), lowBit_mod hd hv]
    omega
  · obtain ⟨k, rfl⟩ := Nat.exists_eq_add_of_le hle
    rw [pow_add, Nat.mul_add_mod, lowBit_mod hd hu, lowBit_mod hd hv]
    exact (and_iff_right (Nat.le_add_right d k)).symm

/-! ## The column probe (R289, R296) -/

/-- A byte of the base word lies in column 0 or 1. -/
theorem baseByte_column {half i : Nat} (hi : i < 4) : i / 2 ^ busShift half < 2 := by
  rw [two_pow_busShift]
  split <;> omega

theorem lane_lt {half : Nat} (i : Nat) : i % 2 ^ busShift half < 2 ^ busShift half := Nat.mod_lt i (Nat.two_pow_pos _)

/-- The bytes of the base word as columns' lanes. -/
theorem baseByte_eq_columnOffset (g : Geometry) {i : Nat} (hi : i < 4) :
    i = columnOffset g (i / 2 ^ busShift g.half) (i % 2 ^ busShift g.half) := by
  have hcol := baseByte_column (half := g.half) hi
  rw [columnOffset, columnWord, Nat.div_eq_of_lt (by omega), Nat.mod_eq_of_lt (b := 2 ^ 3) (by omega), Nat.mul_zero,
    Nat.zero_add, Nat.div_add_mod]

/-- The bytes of the word probed for column bit `c` as columns' lanes: the base word's with bit `c` set (R283). -/
theorem probeByte_eq_columnOffset (g : Geometry) {c i : Nat} (hc : 3 ≤ c) (hi : i < 4) :
    2 ^ (c + busShift g.half + g.bg) + i
      = columnOffset g (2 ^ c + i / 2 ^ busShift g.half) (i % 2 ^ busShift g.half) := by
  have hcol := baseByte_column (half := g.half) hi
  obtain ⟨k, rfl⟩ := Nat.exists_eq_add_of_le hc
  rw [columnOffset, columnWord, pow_add 2 3 k, Nat.mul_add_div (Nat.two_pow_pos 3), Nat.mul_add_mod,
    Nat.div_eq_of_lt (a := i / _) (by omega), Nat.mod_eq_of_lt (b := 2 ^ 3) (by omega)]
  conv_lhs => rw [← Nat.div_add_mod i (2 ^ busShift g.half)]
  ring

/-- The base word and the word probed for column bit `c` lie in the configured columns. -/
theorem probedColumns_lt {g : Geometry} {c i : Nat} (hc : 3 ≤ c) (hcols : c < g.cols) (hi : i < 4) :
    i / 2 ^ busShift g.half < 2 ^ g.cols ∧ 2 ^ c + i / 2 ^ busShift g.half < 2 ^ g.cols := by
  have hcol := baseByte_column (half := g.half) hi
  have htwice : 2 ^ (c + 1) ≤ 2 ^ g.cols := Nat.pow_le_pow_right Nat.two_pos hcols
  have hbit : 2 ^ 3 ≤ 2 ^ c := Nat.pow_le_pow_right Nat.two_pos hc
  omega

theorem ColumnsMapped.baseCell_ne_none {s : State} (h : ColumnsMapped s) {i : Nat} (hi : i < 4) : cellOf s i ≠ none := by
  obtain ⟨hcols, -⟩ := (validGeometry_iff _).mp h.valid
  rw [baseByte_eq_columnOffset (geomFields s.ag) hi,
    h.cellOf_columnOffset (probedColumns_lt (c := 3) le_rfl (by omega) hi).1 (lane_lt i)]
  exact Option.some_ne_none _

/-- The four bytes of the base word have cells of their own. -/
theorem ColumnsMapped.baseCell_inj {s : State} (h : ColumnsMapped s) (hdev : 1 ≤ s.board.dev.cols) {i j : Nat}
    (hi : i < 4) (hj : j < 4) (he : cellOf s i = cellOf s j) : i = j := by
  obtain ⟨hcols, -⟩ := (validGeometry_iff _).mp h.valid
  have column_lt {k : Nat} (hk : k < 4) := (probedColumns_lt (g := geomFields s.ag) le_rfl (by omega) hk).1
  rw [baseByte_eq_columnOffset (geomFields s.ag) hi, baseByte_eq_columnOffset (geomFields s.ag) hj,
    h.cellOf_eq_iff (column_lt hi) (lane_lt i) (column_lt hj) (lane_lt j),
    lowBit_mod hdev (baseByte_column hi), lowBit_mod hdev (baseByte_column hj)] at he
  exact Nat.ext_div_mod he.1 he.2

/-- A byte of the probed word shares its cell with the same byte of the base word, and with no other, exactly when the
device lacks the column bit (R78, R296). -/
theorem ColumnsMapped.probedCell_eq_iff {s : State} (h : ColumnsMapped s) (hdev : 1 ≤ s.board.dev.cols) {c i j : Nat}
    (hc : 3 ≤ c) (hcols : c < (geomFields s.ag).cols) (hi : i < 4) (hj : j < 4) :
    cellOf s (2 ^ (c + busShift (geomFields s.ag).half + (geomFields s.ag).bg) + i) = cellOf s j
      ↔ s.board.dev.cols ≤ c ∧ i = j := by
  rw [probeByte_eq_columnOffset _ hc hi, congrArg (cellOf s) (baseByte_eq_columnOffset (geomFields s.ag) hj),
    h.cellOf_eq_iff (probedColumns_lt hc hcols hi).2 (lane_lt i) (probedColumns_lt hc hcols hj).1 (lane_lt j),
    setBit_mod_eq_iff (by omega) hdev (baseByte_column hi) (baseByte_column hj), and_assoc, ← Nat.ext_div_mod_iff]

/-- Settles O45: on a device without bit `c` the probed word has the base word's cells, on one with it others, and the
read returns the probe's second value or its first. -/
theorem columnProbeFindsUnwiredBit : Obligations.ColumnProbeFindsUnwiredBit := by
  intro s c hc8 hc11 hcols hbanks hrows hbg hmap hranks hdev hwired
  have hrankw : (geomFields s.ag).rankw < 2 := (s.ag.extractLsb' 15 1).isLt
  have h : ColumnsMapped s := ⟨(validGeometry_iff _).mpr (by omega), hmap, hranks, hwired⟩
  have hdistinct : ∀ i j, i < 4 → j < 4 → cellOf s i = cellOf s j → i = j := fun _ _ => h.baseCell_inj (by omega)
  have hshared {i j : Nat} (hi : i < 4) (hj : j < 4) :=
    h.probedCell_eq_iff (c := c) (by omega) (by omega) (by omega) hi hj
  rcases Nat.lt_or_ge c s.board.dev.cols with hhas | hlacks
  · rw [memRead_probeWrites_of_other (fun _ => h.baseCell_ne_none) hdistinct fun i j hi hj he =>
      Nat.not_le.mpr hhas ((hshared hj hi).mp he.symm).1]
    exact iff_of_false (by decide) (Nat.not_le.mpr hhas)
  · rw [memRead_probeWrites_of_same (fun _ => h.baseCell_ne_none) hdistinct fun i hi =>
      (hshared hi hi).mpr ⟨hlacks, rfl⟩]
    exact iff_of_true rfl hlacks

end Sys2Proof.Machine

namespace Sys2Proof.Machine

/-! SUPPORT. The statements about results, errors and hangs (60_exceptions.md): the order in which a CMD write is
answered, the bits that only a block reset clears, the STATUS word frozen by FATAL, the ends of a running command, and
the polls that wait. -/

/-! ## The order of acceptance (R313) -/

/-- FATAL comes first: a command's issue is dropped. -/
theorem issue_of_fatal {s : State} (i : Instr) (hf : s.fatal = true) : issue i s = s :=
  if_pos hf

theorem issueIllegal_of_fatal {s : State} (w : Word) (hf : s.fatal = true) : issueIllegal w s = s :=
  if_pos hf

/-- BUSY comes second: a command's issue is an overrun. -/
theorem issue_of_overrun {s : State} (i : Instr) (hf : s.fatal = false) (hb : s.busy = true) :
    issue i s = { s with ovr := true } := by
  simp only [issue, hf, hb, Bool.false_eq_true, if_false, if_true]

theorem issueIllegal_of_overrun {s : State} (w : Word) (hf : s.fatal = false) (hb : s.busy = true) :
    issueIllegal w s = { s with ovr := true } := by
  simp only [issueIllegal, hf, hb, Bool.false_eq_true, if_false, if_true]

/-- On an idle machine an illegal word ends with ILLEGAL_CMD. -/
theorem issueIllegal_of_idle {s : State} (w : Word) (hf : s.fatal = false) (hb : s.busy = false) :
    issueIllegal w s = endCmd .illegalCmd (accept (opcField w) s) := by
  simp only [issueIllegal, hf, hb, Bool.false_eq_true, if_false]

/-- Where FATAL or BUSY answers a CMD write, the answer is the same for every word. -/
theorem writeCmd_of_any_word {s u : State} {w : Word} (ht : s.turn = .host) (hlegal : ∀ i, issue i s = u)
    (hillegal : issueIllegal w s = u) : writeCmd w s = .next u := by
  rcases writeCmd_cases w s ht with ⟨i, -, e⟩ | ⟨-, -, e⟩
  · rw [e, hlegal i]
  · rw [e, hillegal]

/-- A word with RSV ≠ 0 or a reserved opcode is no command's (R102, R103). -/
theorem writeCmd_of_not_encode {w : Word} (h : ∀ i, w ≠ encode i) (s : State) :
    writeCmd w s = .next (issueIllegal w s) := by
  cases hd : decode w with
  | ok i => exact absurd ((decode_eq_ok_iff w i).mp hd) (h i)
  | error e => simp only [writeCmd, hd]

theorem ne_encode_of_illegal {w : Word}
    (h : rsvField w ≠ 0 ∨ (opcField w).toNat = 0 ∨ 8 < (opcField w).toNat) (i : Instr) : w ≠ encode i := by
  intro hw
  obtain ⟨hrsv, hlow, hhigh⟩ := (exists_eq_encode_iff w).mp ⟨i, hw⟩
  rcases h with hne | hopc | hopc
  · exact hne hrsv
  · omega
  · omega

/-- On an idle machine a command's word starts the command or ends it with SEQ_ERROR. -/
theorem writeCmd_encode_of_idle (i : Instr) {s : State} (ht : s.turn = .host) (hf : s.fatal = false)
    (hb : s.busy = false) : writeCmd (encode i) s =
      if precondition i s = true then .next (startCommand i (accept (opcField (encode i)) s))
      else .next (endCmd .seqError (accept (opcField (encode i)) s)) := by
  rw [writeCmd_of_decode (decode_encode i), exec_of_idle i ht hf hb, opcField_encode]

/-- What starting a command writes, the operand latch and SUB by the commands that write them (R140, R150, R270). -/
theorem startCommand_eq (i : Instr) (s : State) : startCommand i s = { s with
    fsm := firstMicro i
    opGeom := if i = .cfgAddrmap ∨ i = .cfgOdt then s.geom else s.opGeom
    sub := if i = .bringup then 0 else s.sub } := by
  cases i <;> rfl

/-- Settles O3: R313's order, FATAL and BUSY for any word, then the word, then its command's precondition. -/
theorem cmdWriteFollowsAcceptanceOrder : Obligations.CmdWriteFollowsAcceptanceOrder := by
  intro s w ht
  refine ⟨fun hf => ?fatal, fun hf hb => ?overrun, fun hf hb hillegal => ?illegal, fun i hf hb hw hp => ?rejected,
    fun i hf hb hw hp => ?started⟩
  case fatal =>
    exact writeCmd_of_any_word ht (fun i => issue_of_fatal i hf) (issueIllegal_of_fatal w hf)
  case overrun =>
    exact writeCmd_of_any_word ht (fun i => issue_of_overrun i hf hb) (issueIllegal_of_overrun w hf hb)
  case illegal =>
    rw [writeCmd_of_not_encode (ne_encode_of_illegal hillegal), issueIllegal_of_idle w hf hb]
    rfl
  case rejected =>
    rw [hw, writeCmd_encode_of_idle i ht hf hb, if_neg (by simp [hp])]
    rfl
  case started =>
    rw [hw, writeCmd_encode_of_idle i ht hf hb, if_pos hp, startCommand_eq]
    rfl

/-! ## The sticky bits (R312, R313, R341) -/

/-- FATAL and OVR, where set in `s`, are set in `t`. -/
def KeepsSticky (s t : State) : Prop := (s.fatal = true → t.fatal = true) ∧ (s.ovr = true → t.ovr = true)

theorem KeepsSticky.of_eq {s t : State} (hf : t.fatal = s.fatal) (ho : t.ovr = s.ovr) : KeepsSticky s t :=
  ⟨hf.trans, ho.trans⟩

theorem KeepsSticky.endCmd {s t : State} (h : KeepsSticky s t) (r : Result) : KeepsSticky s (endCmd r t) := h

theorem KeepsSticky.startSub {s t : State} (h : KeepsSticky s t) (j : Nat) (i : Instr) :
    KeepsSticky s (startSub j i t) := h

/-- The one end with CONFIG_INVALID, CFG_ADDRMAP's failing check, sets FATAL (R141, R312). -/
theorem fatal_of_configInvalid {i : Instr} {s t : State} (h : subMicro i s = .fin .configInvalid t) :
    t.fatal = true := by
  have hend := subMicro_end h
  cases i
  case cfgAddrmap =>
    obtain ⟨⟨hok, -⟩ | ⟨-, hf⟩, -⟩ := hend
    · cases hok
    · simp only [subMicro, cfgAddrmapMicro, hf, goTo] at h
      split at h <;> cases h
      rfl
  all_goals simp [MicroEnd] at hend

/-- A micro-step keeps both bits, whether its command goes on or ends. -/
theorem keepsSticky_of_subMicro {i : Instr} {s t : State}
    (h : subMicro i s = .go t ∨ ∃ r, subMicro i s = .fin r t) : KeepsSticky s t := by
  obtain ⟨-, hovr, -⟩ := subMicro_keeps h
  rcases h with h | ⟨r, h⟩
  · exact .of_eq (subMicro_go_keeps h).1 hovr
  · rcases (subMicro_end h).fatal with hfatal | rfl
    · exact .of_eq hfatal hovr
    · exact ⟨fun _ => fatal_of_configInvalid h, hovr.trans⟩

theorem subMicro_keepsSticky (i : Instr) (s : State) : KeepsSticky s (microAlone (subMicro i s)) := by
  cases h : subMicro i s with
  | go t => exact keepsSticky_of_subMicro (.inl h)
  | fin r t => exact (keepsSticky_of_subMicro (.inr ⟨r, h⟩)).endCmd r

theorem bringupMicro_keepsSticky (s : State) : KeepsSticky s (microAlone (bringupMicro s)) := by
  cases hi : subCommands[s.sub]? with
  | none =>
    simp only [bringupMicro, hi, microAlone_go]
    exact .of_eq rfl rfl
  | some i =>
    have hkept {t : State} (hm : subMicro i (readOperand i s) = .go t ∨ ∃ r, subMicro i (readOperand i s) = .fin r t) :
        KeepsSticky s t := keepsSticky_of_subMicro (s := readOperand i s) hm
    rcases bringupMicro_cases s i hi with ⟨t, hm, e⟩ | ⟨r, t, hm, -, e⟩ | ⟨t, hm, -, e⟩ | ⟨t, j, hm, -, e⟩ <;> rw [e]
    · exact hkept (.inl hm)
    · exact (hkept (.inr ⟨r, hm⟩)).endCmd r
    · exact (hkept (.inr ⟨.ok, hm⟩)).endCmd .ok
    · exact (hkept (.inr ⟨.ok, hm⟩)).startSub (s.sub + 1) j

theorem issue_keepsSticky (i : Instr) (s : State) : KeepsSticky s (issue i s) := by
  rcases issue_cases i s with ⟨-, e⟩ | ⟨-, -, e⟩ | ⟨-, -, -, e⟩ | ⟨-, -, -, e⟩ <;> rw [e]
  · exact .of_eq rfl rfl
  · exact ⟨id, fun _ => rfl⟩
  · exact .of_eq rfl rfl
  · exact .of_eq rfl rfl

theorem issueIllegal_keepsSticky (w : Word) (s : State) : KeepsSticky s (issueIllegal w s) := by
  rcases issueIllegal_cases w s with ⟨-, e⟩ | ⟨-, -, e⟩ | ⟨-, -, e⟩ <;> rw [e]
  · exact .of_eq rfl rfl
  · exact ⟨id, fun _ => rfl⟩
  · exact .of_eq rfl rfl

theorem sequencerStep_keepsSticky {s u : State} (h : sequencerStep s = .next u) : KeepsSticky s u := by
  rcases sequencerStep_cases h with ⟨rfl, -⟩ | ⟨i, -, -, he⟩
  · exact .of_eq rfl rfl
  · rcases exec_cases he with ⟨-, rfl⟩ | ⟨-, -, rfl⟩ | ⟨-, -, rfl⟩
    · exact issue_keepsSticky i s
    · exact subMicro_keepsSticky i s
    · exact bringupMicro_keepsSticky s

theorem hostStep_keepsSticky {s u : State} (ht : s.turn = .host) (h : hostStep s = .next u) : KeepsSticky s u := by
  rcases hostStep_cases ht h with ⟨i, rfl⟩ | ⟨w, rfl⟩ | ⟨x, rfl⟩ | ⟨off, n, v, -, rfl⟩ | ⟨hh, d, rfl⟩
  · exact issue_keepsSticky i s
  · exact issueIllegal_keepsSticky w s
  · exact .of_eq rfl rfl
  · exact .of_eq (by simp) (by simp)
  · exact .of_eq rfl rfl

theorem envStep_keepsSticky (m : EnvMove) (s : State) : KeepsSticky s (envStep m s) := by
  obtain ⟨p, c, y, d, e⟩ := envStep_eq m s
  exact e ▸ .of_eq rfl rfl

/-- Settles O12: each agent's move but the block reset keeps both bits, and so does passing the turn. -/
theorem onlyBlockResetClearsStickyBits : Obligations.OnlyBlockResetClearsStickyBits := by
  intro s t hreset hstep
  rcases step_cases hstep with ⟨-, u, rfl, hu⟩ | ⟨m, -, rfl⟩ | ⟨ht, rfl⟩ | ⟨ht, u, rfl, hu⟩ <;>
    rw [passTurn_fatal, passTurn_ovr]
  · exact sequencerStep_keepsSticky hu
  · exact envStep_keepsSticky m s
  · exact absurd ht hreset
  · exact hostStep_keepsSticky ht hu

/-! ## The STATUS word under FATAL (R312) -/

/-- STATUS shows FATAL and BUSY (R24). -/
theorem fatal_busy_of_statusWord_eq {s t : State} (h : statusWord t = statusWord s) :
    t.fatal = s.fatal ∧ t.busy = s.busy := by
  rw [statusWord_eq_statusFields, statusWord_eq_statusFields] at h
  obtain ⟨hbusy, -, hfatal, -⟩ := statusFields_bits s
  obtain ⟨hbusy', -, hfatal', -⟩ := statusFields_bits t
  exact ⟨by rw [← hfatal', h, hfatal], by rw [← hbusy', h, hbusy]⟩

@[simp] theorem statusWord_passTurn (s : State) : statusWord (passTurn s) = statusWord s := by
  obtain ⟨turn, sched, tick, e⟩ := passTurn_eq s
  rw [e]
  rfl

@[simp] theorem statusWord_nextLine (s : State) : statusWord (nextLine s) = statusWord s := rfl

@[simp] theorem statusWord_memWrite (s : State) (off n v : Nat) : statusWord (memWrite s off n v) = statusWord s := by
  rw [memWrite_eq]
  rfl

@[simp] theorem statusWord_envStep (m : EnvMove) (s : State) : statusWord (envStep m s) = statusWord s := by
  obtain ⟨p, c, y, d, e⟩ := envStep_eq m s
  rw [e]
  rfl

/-- An idle sequencer does nothing (log 20). -/
theorem sequencerStep_of_idle {s : State} (hb : s.busy = false) : sequencerStep s = .next s :=
  if_neg (by simp [hb])

/-- With FATAL set no access of the host shows in STATUS: its CMD writes are dropped. -/
theorem hostStep_statusWord_of_fatal {s u : State} (ht : s.turn = .host) (hf : s.fatal = true)
    (h : hostStep s = .next u) : statusWord u = statusWord s := by
  rcases hostStep_cases ht h with ⟨i, rfl⟩ | ⟨w, rfl⟩ | ⟨x, rfl⟩ | ⟨off, n, v, -, rfl⟩ | ⟨hh, d, rfl⟩
  · rw [statusWord_nextLine, issue_of_fatal i hf]
  · rw [statusWord_nextLine, issueIllegal_of_fatal w hf]
  · rfl
  · rw [statusWord_nextLine, statusWord_memWrite]
  · rfl

theorem step_statusWord_of_fatal {s t : State} (hf : s.fatal = true) (hb : s.busy = false)
    (hreset : s.turn ≠ .blockReset) (h : step s = .next t) : statusWord t = statusWord s := by
  rcases step_cases h with ⟨-, u, rfl, hu⟩ | ⟨m, -, rfl⟩ | ⟨ht, -⟩ | ⟨ht, u, rfl, hu⟩
  · rw [sequencerStep_of_idle hb] at hu
    cases hu
    exact statusWord_passTurn s
  · rw [statusWord_passTurn, statusWord_envStep]
  · exact absurd ht hreset
  · rw [statusWord_passTurn, hostStep_statusWord_of_fatal ht hf hu]

/-- Settles O13: the word is the same, and FATAL and BUSY are read off it. -/
theorem fatalFreezesStatus : Obligations.FatalFreezesStatus := by
  intro s t hf hb hreset hstep
  have hword := step_statusWord_of_fatal hf hb hreset hstep
  obtain ⟨hfatal, hbusy⟩ := fatal_busy_of_statusWord_eq hword
  exact ⟨hword, hfatal.trans hf, hbusy.trans hb⟩

/-! ## The ends of a running command (R310, R314, R319) -/

/-- The results a command's own micro-steps end with, and where. -/
theorem MicroEnd.result {i : Instr} {s t : State} {r : Result} (h : MicroEnd i s r t) :
    r = .ok ∨ r = .calFail ∧ s.fsm = .calUntrig ∨ r = .configInvalid ∧ s.fsm = .amValidate := by
  cases i <;> simp only [MicroEnd] at h <;> tauto

/-- The sequencer clears BUSY only by the end of a command. -/
theorem sequencerStep_ends {s u : State} (h : PipelineInv s) (ht : s.turn = .sequencer) (hb : s.busy = true)
    (hu : sequencerStep s = .next u) (hend : u.busy = false) :
    u.cmdDone = true ∧ u.fsm = .idle
      ∧ (u.result = .ok ∨ u.result = .calFail ∧ s.fsm = .calUntrig
        ∨ u.result = .configInvalid ∧ s.fsm = .amValidate) := by
  have hruns {v : State} (hv : v.busy = s.busy) : v.busy ≠ false := by simp [hv, hb]
  rcases sequencerStep_micro h.controlFacts ht hu with rfl | ⟨i, x, -, -, -, rfl | ⟨t, j, -, -, -, hm, rfl⟩⟩
  · exact absurd hend (hruns rfl)
  · cases hm : subMicro i { s with opGeom := x } with
    | go t =>
      obtain ⟨-, -, -, -, -, hbusy, -⟩ := subMicro_keeps (.inl hm)
      rw [hm, microAlone_go] at hend
      exact absurd hend (hruns hbusy)
    | fin r t => exact ⟨rfl, rfl, (subMicro_end hm).result⟩
  · obtain ⟨-, -, -, -, -, hbusy, -⟩ := subMicro_keeps (.inr ⟨_, hm⟩)
    exact absurd hend (hruns hbusy)

/-- While a command runs, no access of the host clears BUSY. -/
theorem hostStep_busy {s u : State} (ht : s.turn = .host) (hb : s.busy = true) (h : hostStep s = .next u) :
    u.busy = true := by
  rcases hostStep_cases ht h with ⟨i, rfl⟩ | ⟨w, rfl⟩ | ⟨x, rfl⟩ | ⟨off, n, v, -, rfl⟩ | ⟨hh, d, rfl⟩
  · obtain ⟨o, e⟩ := issue_of_busy i hb
    rw [e]
    exact hb
  · obtain ⟨o, e⟩ := issueIllegal_of_busy w hb
    rw [e]
    exact hb
  · exact hb
  · simpa using hb
  · exact hb

/-- Settles O50: the host and the environment keep BUSY; the sequencer ends a command with its micro-step's result. -/
theorem commandEndsOnlyWithItsResults : Obligations.CommandEndsOnlyWithItsResults := by
  intro s t h hreset hb hstep hend
  rcases step_cases hstep with ⟨ht, u, rfl, hu⟩ | ⟨m, -, rfl⟩ | ⟨ht, -⟩ | ⟨ht, u, rfl, hu⟩
  · simp only [passTurn_busy, passTurn_cmdDone, passTurn_fsm, passTurn_result] at hend ⊢
    exact ⟨ht, sequencerStep_ends h ht hb hu hend⟩
  · have hkept := (fatal_busy_of_statusWord_eq (statusWord_envStep m s)).2
    rw [passTurn_busy, hkept, hb] at hend
    cases hend
  · exact absurd ht hreset
  · rw [passTurn_busy, hostStep_busy ht hb hu] at hend
    cases hend

/-! ## Polls without an answer (R317) -/

/-- A micro-step that answers the state it was given leaves the machine as it is. -/
theorem exec_of_waiting {i : Instr} {s : State} (ht : s.turn = .sequencer) (hi : i ≠ .bringup)
    (h : subMicro i s = .go s) : exec i s = .next s := by
  rw [exec_sequencer i s hi ht, h, microAlone_go]

/-- Settles O32: at each of the five polls the branch without the awaited bit goes on from the same state. -/
theorem unansweredPollHolds : Obligations.UnansweredPollHolds := by
  intro s ht
  refine ⟨fun hf hlock => exec_of_waiting ht nofun ?ckLock, fun hf hdone => exec_of_waiting ht nofun ?waitPhy,
    fun hf hmode => exec_of_waiting ht nofun ?waitNormal, fun hf hbusy => exec_of_waiting ht nofun ?mrwPoll,
    fun hf hcomplete hfail => exec_of_waiting ht nofun ?calPoll⟩
  case ckLock => simp only [subMicro, clkInitMicro, hf, hlock, Bool.false_eq_true, if_false]
  case waitPhy => simp only [subMicro, dfiInitMicro, hf, hdone, Bool.false_eq_true, if_false]
  case waitNormal => simp only [subMicro, dfiInitMicro, hf, hmode, if_false]
  case mrwPoll => simp only [subMicro, dfiInitMicro, hf, hbusy, if_true]
  case calPoll =>
    have hwaits : calPollEnds s = false := (calPollEnds_eq_false_iff s).mpr ⟨hcomplete, hfail⟩
    simp only [subMicro, rdCalMicro, hf, hwaits, Bool.false_eq_true, if_false]

end Sys2Proof.Machine

namespace Sys2Proof.Machine

/-! SUPPORT. The statements about resets and hazards (70_reset_and_hazards.md): what a move can answer, the block reset,
what CLK_INIT and BRINGUP leave unchanged, and where BRINGUP reads GEOM. -/

/-! ## What a move can answer (R311, R363) -/

/-- A line of the host answers a next state, or the fault of its access (R311). -/
theorem hostLine_fault_or_next (l : HostLine) {s : State} (ht : s.turn = .host) :
    (∃ f, hostLine l s = .fault f) ∨ ∃ t, hostLine l s = .next t := by
  rcases hostLine_cases l s ht with ⟨f, e⟩ | ⟨i, e⟩ | ⟨w, e⟩ | ⟨x, e⟩ | ⟨off, n, v, -, e⟩ | ⟨h, d, e⟩
  case inl => exact .inl ⟨f, e⟩
  all_goals exact .inr ⟨_, e⟩

theorem hostStep_fault_or_next {s : State} (ht : s.turn = .host) :
    (∃ f, hostStep s = .fault f) ∨ ∃ t, hostStep s = .next t := by
  unfold hostStep
  split
  · exact .inr ⟨s, rfl⟩
  · split
    · exact hostLine_fault_or_next _ ht
    · exact .inr ⟨s, rfl⟩

theorem sequencerStep_next (s : State) : ∃ t, sequencerStep s = .next t := by
  unfold sequencerStep
  split
  · split
    · exact exec_next _ s
    · exact ⟨s, rfl⟩
  · exact ⟨s, rfl⟩

/-- Passing the turn leaves the kind of the mover's answer as it is. -/
theorem step_of_takeTurn_next {s t : State} (h : takeTurn s = .next t) : step s = .next (passTurn t) := by
  rw [step, h, onNext]

theorem step_of_takeTurn_fault {s : State} {f : Fault} (h : takeTurn s = .fault f) : step s = .fault f := by
  rw [step, h, onNext]

theorem step_blockReset {s : State} (ht : s.turn = .blockReset) : step s = .next (passTurn (blockReset s)) :=
  step_of_takeTurn_next (by rw [takeTurn, ht])

theorem step_next_of_not_host {s : State} (hhost : s.turn ≠ .host) : ∃ t, step s = .next t := by
  rcases turn_cases s with ht | ⟨m, ht⟩ | ht | ht
  · obtain ⟨t, hseq⟩ := sequencerStep_next s
    exact ⟨_, step_of_takeTurn_next (by rw [takeTurn, ht]; exact hseq)⟩
  · exact ⟨_, step_env ht⟩
  · exact ⟨_, step_blockReset ht⟩
  · exact absurd ht hhost

theorem step_fault_or_next_of_host {s : State} (ht : s.turn = .host) :
    (∃ f, step s = .fault f) ∨ ∃ t, step s = .next t := by
  have htake : takeTurn s = hostStep s := by rw [takeTurn, ht]
  rcases hostStep_fault_or_next ht with ⟨f, e⟩ | ⟨t, e⟩
  · exact .inl ⟨f, step_of_takeTurn_fault (htake.trans e)⟩
  · exact .inr ⟨_, step_of_takeTurn_next (htake.trans e)⟩

theorem step_ne_refused (s : State) (r : Refusal) : step s ≠ .refused r := by
  intro hr
  by_cases ht : s.turn = .host
  · rcases step_fault_or_next_of_host ht with ⟨f, e⟩ | ⟨t, e⟩ <;> cases hr.symm.trans e
  · obtain ⟨t, e⟩ := step_next_of_not_host ht
    cases hr.symm.trans e

/-- Settles O6: by the agent whose turn it is. -/
theorem noMoveIsRefused : Obligations.NoMoveIsRefused :=
  ⟨step_ne_refused, fun _ => step_next_of_not_host, fun s i => exec_next i s⟩

/-! ## The block reset (R340, R341) -/

/-- The words a host reads at the block's reset values (R340). -/
theorem blockWords_reset : statusWord State.reset = 0 ∧ geomWord State.reset = 0x00003829
    ∧ calBaseWord State.reset = 0 ∧ activeGeomWord State.reset = 0 := by decide

/-- Settles O10: the words have a lemma, the other registers are written down in State.reset. -/
theorem resetHasBlockResetValues : Obligations.ResetHasBlockResetValues := by
  obtain ⟨hstatus, hgeom, hcal, hactive⟩ := blockWords_reset
  exact ⟨hstatus, hgeom, hcal, hactive, rfl, rfl, rfl, rfl, rfl, rfl, rfl, rfl, rfl, rfl, by decide⟩

/-- Settles O11: passing the turn touches no field that is named, and the words are made of fields that a block reset
takes from State.reset. -/
theorem blockResetFromAnyState : Obligations.BlockResetFromAnyState := by
  intro s ht
  obtain ⟨hstatus, hgeom, hcal, hactive⟩ := blockWords_reset
  obtain ⟨turn, sched, tick, e⟩ := passTurn_eq (blockReset s)
  refine ⟨_, step_blockReset ht, ?_⟩
  rw [e]
  exact ⟨hstatus, hgeom, hcal, hactive, rfl, rfl, rfl, rfl, rfl, rfl, rfl, rfl, rfl, rfl, rfl, rfl, rfl, rfl, rfl,
    fun _ => rfl, rfl, rfl, rfl⟩

/-- State.reset is an idle machine in STAGE = RESET, with no DRAM byte listed. -/
theorem reset_pipelineInv : PipelineInv State.reset :=
  .of_parts
    { idle := ⟨fun _ => rfl, fun _ => rfl⟩, running := nofun, fatalEnd := nofun, owner := nofun
      bringupOdt := nofun, bringupTiming := nofun }
    (.of_reset rfl ⟨Nat.zero_le 5, Nat.zero_le 5⟩ rfl)
    (fun hs => absurd rfl hs)

/-- Settles O53: the two invariants have a lemma each. -/
theorem resetMeetsPipelineInv : Obligations.ResetMeetsPipelineInv :=
  ⟨reset_pipelineInv, reset_memory_wf⟩

/-! ## What CLK_INIT leaves unchanged (R120, R124, R343, R86) -/

/-- All that CLK_INIT may change between `s` and `t`. -/
def ClkInitFrame (s t : State) : Prop :=
  t = { s with
    ccu := t.ccu, pll := t.pll, ctl := t.ctl, phy := t.phy, dram := t.dram, devMr := t.devMr
    phyStarted := t.phyStarted, agValid := t.agValid, draws := t.draws, stage := t.stage, amDone := t.amDone
    odtDone := t.odtDone, timDone := t.timDone, ovr := t.ovr, busy := t.busy, cmdDone := t.cmdDone
    result := t.result, fsm := t.fsm, curCmd := t.curCmd }

/-- The controller and the PHY, which `domain_reset` resets, are in `t` as in `s` (R124). -/
def KeepsCtlPhy (s t : State) : Prop := t.ctl = s.ctl ∧ t.phy = s.phy

/-- The device holds in `t` what it held in `s`, and no free value has been drawn for it (R86, R124). -/
def KeepsDevice (s t : State) : Prop := t.devMr = s.devMr ∧ t.draws = s.draws ∧ t.dram = s.dram

/-- Split by FSM, and by the PLL's lock at the poll. -/
theorem clkInitMicro_frame (s : State) : ClkInitFrame s (microAlone (subMicro .clkInit s)) := by
  simp only [subMicro, clkInitMicro]
  repeat' split
  all_goals rfl

theorem exec_clkInit_frame {s t : State} (h : exec .clkInit s = .next t) : ClkInitFrame s t :=
  exec_related (by simp) (clkInitMicro_frame s) rfl rfl rfl rfl h

/-- Of CLK_INIT's micro-steps the hold step alone resets the DRAM domain (R120). -/
theorem clkInitMicro_keeps {s : State} (hf : s.fsm ≠ .ckHold) :
    KeepsCtlPhy s (microAlone (subMicro .clkInit s)) ∧ KeepsDevice s (microAlone (subMicro .clkInit s)) := by
  simp only [subMicro, clkInitMicro]
  repeat' split
  case h_1 hhold => exact absurd hhold hf
  all_goals exact ⟨⟨rfl, rfl⟩, rfl, rfl, rfl⟩

theorem issue_keepsCtlPhy (i : Instr) (s : State) : KeepsCtlPhy s (issue i s) := by
  rw [issue_eq]
  exact ⟨rfl, rfl⟩

theorem issue_keepsDevice (i : Instr) (s : State) : KeepsDevice s (issue i s) := by
  rw [issue_eq]
  exact ⟨rfl, rfl, rfl⟩

/-- Outside its hold step CLK_INIT resets no domain, in either agent's hands. -/
theorem exec_clkInit_keeps {s t : State} (hhold : ¬(s.turn = .sequencer ∧ s.fsm = .ckHold))
    (h : exec .clkInit s = .next t) : KeepsCtlPhy s t ∧ KeepsDevice s t := by
  rcases exec_cases h with ⟨-, rfl⟩ | ⟨ht, -, rfl⟩ | ⟨-, hi, -⟩
  · exact ⟨issue_keepsCtlPhy .clkInit s, issue_keepsDevice .clkInit s⟩
  · exact clkInitMicro_keeps fun hf => hhold ⟨ht, hf⟩
  · cases hi

/-! ## What BRINGUP leaves unchanged (R270, R343, R86) -/

/-- GEOM, the host, the board and the turns are in `t` as in `s`. -/
def KeepsOutside (s t : State) : Prop :=
  t.geom = s.geom ∧ t.host = s.host ∧ t.board = s.board ∧ t.turn = s.turn ∧ t.sched = s.sched ∧ t.tick = s.tick

theorem subMicro_keepsOutside (i : Instr) (s : State) : KeepsOutside s (microAlone (subMicro i s)) := by
  have hkept {t : State} (h : subMicro i s = .go t ∨ ∃ r, subMicro i s = .fin r t) : KeepsOutside s t := by
    obtain ⟨hgeom, -, -, -, -, -, -, -, hboard, hhost, hturn, hsched, htick⟩ := subMicro_keeps h
    exact ⟨hgeom, hhost, hboard, hturn, hsched, htick⟩
  cases hm : subMicro i s with
  | go t => exact hkept (.inl hm)
  | fin r t => exact hkept (t := t) (.inr ⟨r, hm⟩)

theorem issue_keepsOutside (i : Instr) (s : State) : KeepsOutside s (issue i s) := by
  rw [issue_eq]
  exact ⟨rfl, rfl, rfl, rfl, rfl, rfl⟩

/-- Of all commands' micro-steps the hold step alone reaches the device: the other commands' frames hold no field of it. -/
theorem subMicro_keepsDevice (i : Instr) {s : State} (hf : s.fsm ≠ .ckHold) :
    KeepsDevice s (microAlone (subMicro i s)) := by
  have ofFrame {t u : State} (h : t = u) (hu : KeepsDevice s u) : KeepsDevice s t := h ▸ hu
  cases i with
  | clkInit => exact (clkInitMicro_keeps hf).2
  | cfgOdt => exact ofFrame (cfgOdtMicro_frame s) ⟨rfl, rfl, rfl⟩
  | cfgAddrmap => exact ofFrame (cfgAddrmapMicro_frame s) ⟨rfl, rfl, rfl⟩
  | cfgTiming => exact ofFrame (cfgTimingMicro_frame s) ⟨rfl, rfl, rfl⟩
  | phyInit => exact ofFrame (phyInitMicro_frame s) ⟨rfl, rfl, rfl⟩
  | dfiInit => exact ofFrame (dfiInitMicro_frame s) ⟨rfl, rfl, rfl⟩
  | rdCal => exact ofFrame (rdCalMicro_frame s) ⟨rfl, rfl, rfl⟩
  | bringup => exact ⟨rfl, rfl, rfl⟩

/-- A relation between the states before and after BRINGUP's micro-step holds when it holds for every sub-command's,
whether the sub-command's end is BRINGUP's or the next sub-command starts instead (R270, R272). -/
theorem bringupMicro_related {R : State → State → Prop} {s : State} (hwaits : R s s)
    (hmicro : ∀ i, R s (microAlone (subMicro i (readOperand i s))))
    (hnext : ∀ j k t, R s (endCmd .ok t) → R s (startSub j k t)) : R s (microAlone (bringupMicro s)) := by
  cases hi : subCommands[s.sub]? with
  | none =>
    simp only [bringupMicro, hi, microAlone_go]
    exact hwaits
  | some i =>
    have hsub := hmicro i
    rcases bringupMicro_cases s i hi with ⟨t, hm, e⟩ | ⟨r, t, hm, -, e⟩ | ⟨t, hm, -, e⟩ | ⟨t, j, hm, -, e⟩ <;>
      rw [hm] at hsub <;> rw [e]
    · exact hsub
    · exact hsub
    · exact hsub
    · exact hnext _ _ _ hsub

theorem exec_bringup_keepsOutside {s t : State} (h : exec .bringup s = .next t) : KeepsOutside s t := by
  rcases exec_cases h with ⟨-, rfl⟩ | ⟨-, hi, -⟩ | ⟨-, -, rfl⟩
  · exact issue_keepsOutside .bringup s
  · exact absurd rfl hi
  · exact bringupMicro_related ⟨rfl, rfl, rfl, rfl, rfl, rfl⟩ (fun i => subMicro_keepsOutside i (readOperand i s))
      fun _ _ _ hend => hend

theorem exec_bringup_keepsDevice {s t : State} (hhold : ¬(s.turn = .sequencer ∧ s.fsm = .ckHold))
    (h : exec .bringup s = .next t) : KeepsDevice s t := by
  rcases exec_cases h with ⟨-, rfl⟩ | ⟨-, hi, -⟩ | ⟨ht, -, rfl⟩
  · exact issue_keepsDevice .bringup s
  · exact absurd rfl hi
  · exact bringupMicro_related ⟨rfl, rfl, rfl⟩
      (fun i => subMicro_keepsDevice i (s := readOperand i s) fun hf => hhold ⟨ht, hf⟩) fun _ _ _ hend => hend

/-- At every micro-step but 0x20 and 0x28 the operand latch stays, whatever the sub-command. -/
theorem readOperand_of_no_read (i : Instr) {s : State} (hv : s.fsm ≠ .amValidate) (ho : s.fsm ≠ .odtMap) :
    readOperand i s = s := by
  cases i
  case cfgAddrmap => exact readOperand_of_ne hv
  case cfgOdt => exact readOperand_of_ne ho
  all_goals simp only [readOperand, latchedGeom, ite_self]

/-- BRINGUP's hold step is CLK_INIT's (R270). -/
theorem exec_bringup_hold {s : State} (ht : s.turn = .sequencer) (hsub : s.sub = 0) (hf : s.fsm = .ckHold) :
    exec .bringup s = .next (afterHold s) := by
  have hread : readOperand .clkInit s = s := readOperand_of_no_read .clkInit (by simp [hf]) (by simp [hf])
  have hhold : exec .clkInit (readOperand .clkInit s) = .next (afterHold s) := by
    rw [hread, exec_clkInit_hold ht hf]
  exact exec_bringup_eq_exec_sub ht (by rw [hsub]; rfl) hhold (.inl (by simp [afterHold]))

/-- Settles O39: the frames of the two commands, the device kept outside the hold step, and the state after it. -/
theorem domainResetFrame : Obligations.DomainResetFrame := by
  refine ⟨fun s t h => ⟨exec_clkInit_frame h, fun hhold => ?clkKeeps, fun ht hf k => ?clkForgets⟩, fun s t h => ?bringup⟩
  case clkKeeps =>
    obtain ⟨⟨hctl, hphy⟩, hdev, -, hdram⟩ := exec_clkInit_keeps hhold h
    have hboard : t.board = s.board := (congrArg State.board (exec_clkInit_frame h) :)
    have hag : t.ag = s.ag := (congrArg State.ag (exec_clkInit_frame h) :)
    exact ⟨hctl, hphy, hdev, memory_unchanged hdram (cellOf_congr hboard (by rw [hctl]) hag)⟩
  case clkForgets =>
    cases h.symm.trans (exec_clkInit_hold ht hf)
    rfl
  case bringup =>
    obtain ⟨hgeom, hhost, hboard, hturn, hsched, htick⟩ := exec_bringup_keepsOutside h
    refine ⟨hgeom, hhost, hboard, hturn, hsched, htick, fun hhold => ?_, fun ht hsub hf k => ?_⟩
    · obtain ⟨hdev, hdraws, hdram⟩ := exec_bringup_keepsDevice hhold h
      exact ⟨hdev, hdraws, fun k => by rw [hdram]⟩
    · cases h.symm.trans (exec_bringup_hold ht hsub hf)
      rfl

/-! ## Where BRINGUP reads GEOM (R355) -/

/-- At a micro-step that is not its sub-command's own, BRINGUP holds (log 17). -/
theorem exec_bringup_of_not_owner {s : State} (ht : s.turn = .sequencer) (hv : s.fsm ≠ .amValidate)
    (ho : s.fsm ≠ .odtMap) (hown : ∀ i, subCommands[s.sub]? = some i → microOwner s.fsm ≠ some i) :
    exec .bringup s = .next s := by
  rw [exec_bringup_sequencer s ht]
  cases hi : subCommands[s.sub]? with
  | none => simp only [bringupMicro, hi, microAlone_go]
  | some i =>
    simp only [bringupMicro, hi, readOperand_of_no_read i hv ho, subMicro_of_not_owner (hown i hi), microAlone_go]

/-- A sub-command but the last has a successor (R271). -/
theorem exists_next_subCommand {j : Nat} {i : Instr} (hi : subCommands[j]? = some i) (hj : j ≠ 6) :
    ∃ k, subCommands[j + 1]? = some k := by
  have hlt : j < 7 := (List.getElem?_eq_some_iff.mp hi).1
  exact ⟨_, List.getElem?_eq_getElem (by change j + 1 < 7; omega)⟩

/-- A sub-command's own micro-step does not read GEOM but at 0x20 and 0x28, and BRINGUP's step is that micro-step, with
the start of the next sub-command after an end with OK. -/
theorem exec_bringup_geom_of_owner {s t : State} {i : Instr} (x : BitVec 17) (ht : s.turn = .sequencer)
    (hv : s.fsm ≠ .amValidate) (ho : s.fsm ≠ .odtMap) (hi : subCommands[s.sub]? = some i)
    (hown : microOwner s.fsm = some i) (h : exec .bringup s = .next t) :
    exec .bringup { s with geom := x } = .next { t with geom := x } := by
  have hread : readOperand i { s with geom := x } = { s with geom := x } := readOperand_of_no_read i hv ho
  obtain ⟨u, hu⟩ := exec_next i (readOperand i s)
  have hux : exec i (readOperand i { s with geom := x }) = .next { u with geom := x } := by
    rw [readOperand_of_no_read i hv ho] at hu
    rw [hread]
    exact runningCommandIgnoresGeom i s u x (ne_bringup_of_subCommands hi) ht hu
  by_cases hstays : u.fsm ≠ .idle ∨ u.result ≠ .ok ∨ s.sub = 6
  · cases h.symm.trans (exec_bringup_eq_exec_sub ht hi hu hstays)
    exact exec_bringup_eq_exec_sub (s := { s with geom := x }) ht hi hux hstays
  · push Not at hstays
    obtain ⟨hidle, hok, hlast⟩ := hstays
    obtain ⟨k, hk⟩ := exists_next_subCommand hi hlast
    cases h.symm.trans (exec_bringup_starts_next ht hi hown hk hu hidle hok)
    exact exec_bringup_starts_next (s := { s with geom := x }) ht hi hown hk hux hidle hok

theorem exec_bringup_geom {s t : State} (x : BitVec 17) (ht : s.turn = .sequencer) (hv : s.fsm ≠ .amValidate)
    (ho : s.fsm ≠ .odtMap) (h : exec .bringup s = .next t) :
    exec .bringup { s with geom := x } = .next { t with geom := x } := by
  by_cases hown : ∃ i, subCommands[s.sub]? = some i ∧ microOwner s.fsm = some i
  · obtain ⟨i, hi, hown⟩ := hown
    exact exec_bringup_geom_of_owner x ht hv ho hi hown h
  · have hforeign (i : Instr) (hi : subCommands[s.sub]? = some i) (hm : microOwner s.fsm = some i) : False :=
      hown ⟨i, hi, hm⟩
    cases h.symm.trans (exec_bringup_of_not_owner ht hv ho hforeign)
    exact exec_bringup_of_not_owner (s := { s with geom := x }) ht hv ho hforeign

/-- At 0x20 the operand is GEOM as it is then, and the check is on it. -/
theorem exec_bringup_validate {s : State} (ht : s.turn = .sequencer) (hsub : s.sub = 1) (hf : s.fsm = .amValidate)
    (hvalid : validGeometry (geomFields s.geom) = true) :
    exec .bringup s = .next { s with fsm := .amMstr, opGeom := s.geom } := by
  have hread : readOperand .cfgAddrmap s = { s with opGeom := s.geom } := by
    rw [readOperand_of_owner (by rw [hf]; rfl), if_pos (.inl hf)]
  have hcheck : exec .cfgAddrmap (readOperand .cfgAddrmap s) = .next { s with fsm := .amMstr, opGeom := s.geom } := by
    rw [hread, exec_cfgAddrmap_validate (s := { s with opGeom := s.geom }) ht hf, if_pos hvalid]
  exact exec_bringup_eq_exec_sub ht (by rw [hsub]; rfl) hcheck (.inl (by simp))

/-- At 0x28 the operand is GEOM as it is then, and the routing constant follows its HALF. -/
theorem exec_bringup_routing {s : State} (ht : s.turn = .sequencer) (hsub : s.sub = 2) (hf : s.fsm = .odtMap) :
    exec .bringup s = .next { s with
      fsm := .odtTim, opGeom := s.geom
      ctl := { s.ctl with odtmap := odtRouting (geomFields s.geom).half } } := by
  have hread : readOperand .cfgOdt s = { s with opGeom := s.geom } := by
    rw [readOperand_of_owner (by rw [hf]; rfl), if_pos (.inr hf)]
  have hroute : exec .cfgOdt (readOperand .cfgOdt s) = .next { s with
      fsm := .odtTim, opGeom := s.geom
      ctl := { s.ctl with odtmap := odtRouting (geomFields s.geom).half } } := by
    rw [hread]
    exact exec_sequencer_at (s := { s with opGeom := s.geom }) ht hf
  exact exec_bringup_eq_exec_sub ht (by rw [hsub]; rfl) hroute (.inl (by simp))

/-- Settles O55: the steps that read no GEOM, then the two that do. -/
theorem bringupReadsGeomTwice : Obligations.BringupReadsGeomTwice := by
  refine ⟨fun s t x ht hv ho h => exec_bringup_geom x ht hv ho h,
    fun s ht hsub hf hvalid => exec_bringup_validate ht hsub hf hvalid, fun s ht hsub hf => ?routing⟩
  case routing => rw [exec_bringup_routing ht hsub hf, odtRouting_geomFields]

end Sys2Proof.Machine
